-- ==== Sys2Proof/Word.lean ====
section
/-! DEFINITION. The word types of KDMX (spec 00_scope.md R2, R9): bytes, 16-bit port base addresses and pin levels. -/

namespace Sys2Proof

/-- One 8-bit datum (R2: every datum KDMX moves is at most 8 bits wide). -/
abbrev Byte := BitVec 8

/-- A port's base register address, the one 16-bit datum of KDMX (R2, R61). -/
abbrev PortBase := BitVec 16

/-- A pin level (R9): `low` is 0, `high` is 1. -/
inductive Level where
  | low
  | high
  deriving DecidableEq, Repr, Inhabited

/-- `!lv`, the other level (R9). -/
def Level.inv : Level → Level
  | .low => .high
  | .high => .low

/-- The level a bit stands for: 0 is `low`, 1 is `high` (R9). -/
def Level.ofBit (b : Bool) : Level := if b then .high else .low

end Sys2Proof
end

