-- ==== Sys2Proof/Syntax.lean ====
section
/-! DEFINITION. The six commands of KDMX as syntax, and the frames that carry them (spec 30_encoding.md R80–R91). -/

namespace Sys2Proof

/-- Where an opcode arrives (R80): the command port, driven by MAIN, or the tick input, driven by TickSource. -/
inductive Port where
  | command
  | tick
  deriving DecidableEq, Repr

/-- A frame (R80): one opcode byte and a payload, delivered whole with its length. -/
structure Frame where
  opcode : Byte
  payload : List Byte
  deriving DecidableEq, Repr

/-- A frame as the bytes on the port, opcode first. -/
def Frame.bytes (f : Frame) : List Byte := f.opcode :: f.payload

/-- A group descriptor as a frame holds it (R84): the base, and the raw first-pin byte with its bits 7:3 unchecked. -/
structure GroupOp where
  base : PortBase
  first : Byte
  deriving DecidableEq, Repr

/-- One constructor per row of opcode_table.json. Operands are the raw payload bytes: an operand code outside its range
is a legal frame that its command answers with an error (R91). A length byte (M, NV, NP) is the length of its list. -/
inductive Instr where
  /-- KS_CONFIGURE: GEOM, K, line group, column group, MAP (R85). -/
  | ksConfigure (geom k : Byte) (lines cols : GroupOp) (map : List Byte)
  /-- KS_POLL: no operand (R86). -/
  | ksPoll
  /-- MD_CONFIGURE: NDIG, POL (R87). -/
  | mdConfigure (ndig pol : Byte)
  /-- MD_SETPORTS: data group, control group with controlFirstPin, ACT (R88). -/
  | mdSetPorts (data ctrl : GroupOp) (act : Byte)
  /-- MD_UPDATE: VAL, PT (R89). -/
  | mdUpdate (vals pts : List Byte)
  /-- MD_ADVANCE: the tick, no operand (R90). -/
  | mdAdvance
  deriving DecidableEq, Repr

/-- The port an instruction arrives on (R82): MD_ADVANCE on the tick input only, every other on the command port. -/
def Instr.port : Instr → Port
  | .ksConfigure _ _ _ _ _ => .command
  | .ksPoll => .command
  | .mdConfigure _ _ => .command
  | .mdSetPorts _ _ _ => .command
  | .mdUpdate _ _ => .command
  | .mdAdvance => .tick

end Sys2Proof
end

