-- ==== Sys2Proof/WellFormed.lean ====
section
/-! DEFINITION. Which instructions a frame can carry (spec 30_encoding.md R85, R89): the length bytes M, NV and NP are
8 bits wide, so no sequence is longer than 255. Every other operand is a whole byte, so nothing else is checked. -/

namespace Sys2Proof

/-- A sequence whose length one payload byte can hold. -/
def lengthFits (bs : List Byte) : Bool := bs.length ≤ 255

/-- The instruction is one that some frame encodes. -/
def Instr.wf : Instr → Bool
  | .ksConfigure _ _ _ _ map => lengthFits map
  | .ksPoll => true
  | .mdConfigure _ _ => true
  | .mdSetPorts _ _ _ => true
  | .mdUpdate vals pts => lengthFits vals && lengthFits pts
  | .mdAdvance => true

end Sys2Proof
end

