-- ==== Sys2Proof/Decode.lean ====
section
/-! DEFINITION. The decoder, total on any bytes and rejecting by name, and the encoder (spec 30_encoding.md R81–R94, R97).
The decoder matches the opcode byte, checks the port it arrived on, cuts the payload and checks its length. -/

namespace Sys2Proof

/-- Why bytes are no instruction. On the command port each is answered IllegalCommand (R93). -/
inductive Reject where
  /-- There is no opcode byte at all. -/
  | noOpcode
  /-- The opcode byte is in no row of the table (R82, R94). -/
  | unassignedOpcode
  /-- The opcode is assigned, but not on this port (R82, R93). -/
  | wrongPort
  /-- The payload length differs from the one its opcode gives (R83). -/
  | malformedLength
  deriving DecidableEq, Repr

/-- A little-endian u16: the byte at the lower offset is the less significant one (R67, R84). -/
def u16le (lo hi : Byte) : PortBase := hi ++ lo

/-- The less significant byte of a base address. -/
def lowByte (b : PortBase) : Byte := b.extractLsb' 0 8

/-- The more significant byte of a base address. -/
def highByte (b : PortBase) : Byte := b.extractLsb' 8 8

/-- KS_CONFIGURE's payload (R85): nine fixed bytes, then exactly M map bytes. -/
def decodeKsConfigure : List Byte → Except Reject Instr
  | geom :: k :: l0 :: l1 :: lf :: c0 :: c1 :: cf :: m :: map =>
    if map.length = m.toNat then .ok (.ksConfigure geom k ⟨u16le l0 l1, lf⟩ ⟨u16le c0 c1, cf⟩ map)
    else .error .malformedLength
  | _ => .error .malformedLength

/-- KS_POLL's payload (R86): empty. -/
def decodeKsPoll : List Byte → Except Reject Instr
  | [] => .ok .ksPoll
  | _ => .error .malformedLength

/-- MD_CONFIGURE's payload (R87): two bytes. -/
def decodeMdConfigure : List Byte → Except Reject Instr
  | [ndig, pol] => .ok (.mdConfigure ndig pol)
  | _ => .error .malformedLength

/-- MD_SETPORTS's payload (R88): seven bytes. -/
def decodeMdSetPorts : List Byte → Except Reject Instr
  | [d0, d1, df, x0, x1, xf, act] => .ok (.mdSetPorts ⟨u16le d0 d1, df⟩ ⟨u16le x0 x1, xf⟩ act)
  | _ => .error .malformedLength

/-- MD_UPDATE's payload (R89): NV, NP, then exactly NV values and NP points. -/
def decodeMdUpdate : List Byte → Except Reject Instr
  | nv :: np :: rest =>
    if rest.length = nv.toNat + np.toNat then .ok (.mdUpdate (rest.take nv.toNat) (rest.drop nv.toNat))
    else .error .malformedLength
  | _ => .error .malformedLength

/-- MD_ADVANCE's payload (R90): empty. -/
def decodeMdAdvance : List Byte → Except Reject Instr
  | [] => .ok .mdAdvance
  | _ => .error .malformedLength

/-- A frame on the command port (R82, R93): five opcodes are accepted; 0x14 is illegal there. -/
def decodeCommand (f : Frame) : Except Reject Instr :=
  if f.opcode = 0x01 then decodeKsConfigure f.payload
  else if f.opcode = 0x02 then decodeKsPoll f.payload
  else if f.opcode = 0x11 then decodeMdConfigure f.payload
  else if f.opcode = 0x12 then decodeMdSetPorts f.payload
  else if f.opcode = 0x13 then decodeMdUpdate f.payload
  else if f.opcode = 0x14 then .error .wrongPort
  else .error .unassignedOpcode

/-- The opcodes of R82 that the command port accepts. -/
def commandOpcodes : List Byte := [0x01, 0x02, 0x11, 0x12, 0x13]

/-- The tick input (R82, R90): a strobe is written 0x14, and nothing else arrives there. -/
def decodeTick (f : Frame) : Except Reject Instr :=
  if f.opcode = 0x14 then decodeMdAdvance f.payload
  else if f.opcode ∈ commandOpcodes then .error .wrongPort
  else .error .unassignedOpcode

/-- The decoder on a frame (R97). -/
def decodeFrame (port : Port) (f : Frame) : Except Reject Instr :=
  match port with
  | .command => decodeCommand f
  | .tick => decodeTick f

/-- The decoder on any bytes: the first is the opcode, the others are the payload as delivered. -/
def decode (port : Port) : List Byte → Except Reject Instr
  | [] => .error .noOpcode
  | op :: payload => decodeFrame port ⟨op, payload⟩

/-- A group descriptor's three payload bytes (R84). -/
def encodeGroup (g : GroupOp) : List Byte := [lowByte g.base, highByte g.base, g.first]

/-- A sequence's length byte (R85, R89). -/
def lengthByte (bs : List Byte) : Byte := BitVec.ofNat 8 bs.length

/-- The frame of an instruction, from the tables of R82 and R85–R90. -/
def encodeFrame : Instr → Frame
  | .ksConfigure geom k lines cols map =>
    ⟨0x01, geom :: k :: (encodeGroup lines ++ encodeGroup cols ++ lengthByte map :: map)⟩
  | .ksPoll => ⟨0x02, []⟩
  | .mdConfigure ndig pol => ⟨0x11, [ndig, pol]⟩
  | .mdSetPorts data ctrl act => ⟨0x12, encodeGroup data ++ encodeGroup ctrl ++ [act]⟩
  | .mdUpdate vals pts => ⟨0x13, lengthByte vals :: lengthByte pts :: (vals ++ pts)⟩
  | .mdAdvance => ⟨0x14, []⟩

/-- The bytes of an instruction, opcode first. -/
def encode (i : Instr) : List Byte := (encodeFrame i).bytes

/-- Byte i of a word numbered as opcode_table.json numbers it (byte 0 first), zero from bit `nbits` on. -/
def tableByte (nbits w i : Nat) : Byte :=
  if i < (nbits + 7) / 8 then BitVec.ofNat 8 (w >>> (8 * i)) else 0

/-- The payload length R83 gives for such a word, its length bytes among them. -/
def tablePayloadLength (nbits w : Nat) : Nat :=
  if tableByte nbits w 0 = 0x01 then 9 + (tableByte nbits w 9).toNat
  else if tableByte nbits w 0 = 0x11 then 2
  else if tableByte nbits w 0 = 0x12 then 7
  else if tableByte nbits w 0 = 0x13 then 2 + (tableByte nbits w 1).toNat + (tableByte nbits w 2).toNat
  else 0

/-- The frame such a word stands for: its own bytes, and zero bytes up to the length its opcode gives. -/
def tableFrame (nbits w : Nat) : Frame :=
  ⟨tableByte nbits w 0,
    (List.range (max ((nbits + 7) / 8 - 1) (tablePayloadLength nbits w))).map fun i => tableByte nbits w (i + 1)⟩

/-- The port a word's opcode byte arrives on: 0x14 on the tick input, every other on the command port (R82). -/
def tablePort (nbits w : Nat) : Port := if tableByte nbits w 0 = 0x14 then .tick else .command

/-- The instruction the decoder reads from a word of opcode_table.json. -/
def decodeTableWord (nbits w : Nat) : Option Instr :=
  (decodeFrame (tablePort nbits w) (tableFrame nbits w)).toOption

end Sys2Proof
end

