-- ==== Sys2Proof/Config.lean ====
section
/-! DEFINITION. The parameters of KDMX (spec 00_scope.md R6, R7): the fixed numbers, the named parameters as plain data,
and the open values as constants without a body. -/

namespace Sys2Proof

/-- REPORT_MODE (R7, R122). -/
inductive ReportMode where
  | edge
  | held
  deriving DecidableEq, Repr

/-- CDC_SCHEME (R7, R159). -/
inductive CdcScheme where
  | swap
  | mask
  deriving DecidableEq, Repr

/-- The named parameters of R7 that rules depend on, as plain data.
The machine carries them unchanged, so a statement about every state is a statement about every value of them.
`validPorts` lists the bases VALID_PORT admits; `segTable` lists SEG_TABLE's patterns by value, and a value past the
end of the list has the all-dark pattern, so every function u8 → u7 is the table of some list (log entry 3). -/
structure Params where
  /-- KP_ACTIVE: the level of an asserted keypad line and of an active column. -/
  kpActive : Level
  /-- REPORT_MODE. -/
  reportMode : ReportMode
  /-- CDC_SCHEME. -/
  cdcScheme : CdcScheme
  /-- VALID_PORT, as the list of admitted port bases. -/
  validPorts : List PortBase
  /-- SEG_TABLE, as the list of patterns for the values 0, 1, 2, … -/
  segTable : List (BitVec 7)
  deriving DecidableEq, Repr

namespace Config

/-- PORT_PINS: pins of one port (R7, R61). -/
def portPins : Nat := 8

/-- K_MAX: the largest debounce threshold (R7). -/
def kMax : Nat := 255

/-- MAX_DIGITS: positions of one digit buffer (R7, R30). -/
def maxDigits : Nat := 8

/-- Bytes of the key-map RAM (R22). -/
def keyMapSize : Nat := 16

/-- The platform's admitted port bases, OPEN (R7): what `State.reset` puts into `Params.validPorts`. No body. -/
opaque validPorts : List PortBase

/-- The platform's code table, OPEN (R7): what `State.reset` puts into `Params.segTable`. No body. -/
opaque segTable : List (BitVec 7)

/-- GPIO_INIT, the direction of a pin KDMX has not set, OPEN (R7, R36). No body. -/
opaque gpioInitDir : PortBase → Nat → Level

/-- GPIO_INIT, the output latch of a pin KDMX has not written, OPEN (R7, R36). No body. -/
opaque gpioInitOut : PortBase → Nat → Level

/-- `draw_ENV` (R64): the level ENV answers to the n-th read of the run, OPEN. No body.
Used when `State.draws` names no answer. -/
opaque envDraw : Nat → PortBase → Nat → Level

/-- SETTLE_DELAY, OPEN (R7, R117). No rule depends on it, and the untimed model reads it nowhere (R241). -/
opaque settleDelay : Nat

/-- TICK_PERIOD, OPEN (R7, R212). No rule depends on it, and the untimed model reads it nowhere (R241). -/
opaque tickPeriod : Nat

/-- The parameters of the machine `State.reset` describes: the defaults R7 names, and the open ones left open. -/
def params : Params where
  kpActive := .low
  reportMode := .edge
  cdcScheme := .swap
  validPorts := validPorts
  segTable := segTable

end Config
end Sys2Proof
end

