-- ==== Sys2Proof/Machine/State.lean ====
section
/-! DEFINITION. The state of KDMX as plain data (spec 10_state.md), the reasons a step can stop, and the state after reset. -/

namespace Sys2Proof.Machine

/-- A sparse store: key and value pairs, keys strictly rising. -/
abbrev Cells (α : Type) := List (Nat × α)

/-- An internal RAM (R66): its non-zero bytes by address, addresses strictly rising. An unlisted address reads 0x00,
the reset contents of R40. -/
abbrev Memory := List Host.Cell

/-- A bound pin group (R61): base and first pin. Its size comes from the geometry or the digit count. -/
structure Group where
  base : PortBase
  first : BitVec 3
  deriving DecidableEq, Repr

/-- `ks.geom` (R22, R23): codes 0, 1 and 2. Code 3 is never stored. -/
inductive Geometry where
  | g4x4
  | g4x3
  | g5x3
  deriving DecidableEq, Repr

/-- lineCount (R23). -/
def Geometry.lines : Geometry → Nat
  | .g4x4 => 4
  | .g4x3 => 4
  | .g5x3 => 5

/-- columnCount (R23). -/
def Geometry.cols : Geometry → Nat
  | .g4x4 => 4
  | .g4x3 => 3
  | .g5x3 => 3

/-- `ks.phase` (R26): the micro-step of the scan cycle that runs next. -/
inductive Phase where
  | idle
  | drive (l : Nat)
  | settle (l : Nat)
  | sample (l c : Nat)
  | release (l : Nat)
  | decide
  deriving DecidableEq, Repr

/-- The registers of KS (R22–R27). `ks.L` and `ks.C` are the views `Ks.lines` and `Ks.cols` of `geom` (R23, log entry 5). -/
structure Ks where
  configured : Bool
  geom : Geometry
  /-- DebounceThreshold, 1..255 once configured. -/
  k : Nat
  lineGrp : Group
  colGrp : Group
  /-- 16 bytes, addresses 0..15. -/
  keyMap : Memory
  /-- The last candidate: a key code, or 0xFF. -/
  cand : Byte
  /-- The consecutive-match counter, 0..K. -/
  cnt : Nat
  phase : Phase
  /-- The raw index of the first active pair of this scan cycle, at most 15. -/
  hit : Option Nat
  deriving DecidableEq, Repr

/-- `ks.L` (R23). -/
def Ks.lines (k : Ks) : Nat := k.geom.lines

/-- `ks.C` (R23). -/
def Ks.cols (k : Ks) : Nat := k.geom.cols

/-- DisplayPolarity (R29): `cc` is code 0, `ca` is code 1. -/
inductive Polarity where
  | cc
  | ca
  deriving DecidableEq, Repr

/-- `md.uphase` (R33): the micro-step of a SWAP update that runs next. -/
inductive UPhase where
  | idle
  | write (i : Nat)
  | commit
  deriving DecidableEq, Repr

/-- The registers of MD (R29–R33). -/
structure Md where
  configured : Bool
  portsSet : Bool
  /-- `md.N`, digitCount: 2..8 once configured. -/
  n : Nat
  pol : Polarity
  dataGrp : Group
  ctrlGrp : Group
  act : Level
  /-- `md.buf`: 2 × 8 entries of one byte; entry d of buffer b is address 8·b + d (R30). -/
  buf : Memory
  /-- `md.sel`: the active buffer, `false` for 0 and `true` for 1. -/
  sel : Bool
  /-- The position the next MD_ADVANCE shows. -/
  idx : Nat
  activeDigit : Option Nat
  uphase : UPhase
  /-- The MODEL's own: under MASK, UPD_ENTRY has run and UPD_MASKED runs next (R157, R162, log entry 6). -/
  maskedDue : Bool
  deriving DecidableEq, Repr

/-- The result codes of a response (R92). -/
inductive Result where
  | ok
  | notConfigured
  | invalidGeometry
  | portsNotSet
  | invalidArgument
  | illegalCommand
  deriving DecidableEq, Repr

/-- The numeric value of a result code (R92). -/
def Result.code : Result → Byte
  | .ok => 0x00
  | .notConfigured => 0x01
  | .invalidGeometry => 0x02
  | .portsNotSet => 0x03
  | .invalidArgument => 0x04
  | .illegalCommand => 0x05

/-- One observation: a pin event (R64), or a command's response (R92). -/
inductive Obs where
  /-- `W(base, pin, level)`. -/
  | write (base : PortBase) (pin : Nat) (lv : Level)
  /-- `D(base, mask, dirs & mask)`. -/
  | setDir (base : PortBase) (mask dirs : Byte)
  /-- `R(base, pin, level)`. -/
  | read (base : PortBase) (pin : Nat) (lv : Level)
  /-- `(res, data)`. -/
  | response (res : Result) (data : Byte)
  deriving DecidableEq, Repr

/-- What happens next in the interleaving (R72, R205, R206, R211, R230). -/
inductive Turn where
  /-- MAIN takes its next micro-step. -/
  | main
  /-- TICK takes its step, if it has one. -/
  | tick
  /-- TickSource strobes the tick input. -/
  | strobe
  /-- The reset of R230; the platform leaves the pins as they are, or puts all of them back to GPIO_INIT. -/
  | reset (pinsKept : Bool)
  deriving DecidableEq, Repr

/-- The machine's state. From `cmds` on, the fields are the MODEL's own: what the outside world will do, as plain data,
and the trace the block has emitted. -/
structure State where
  /-- The parameters of R7; no step changes them. -/
  params : Params
  ks : Ks
  md : Md
  /-- `tick.pending` (R35). -/
  tickPending : Bool
  /-- `ctx.masked` (R35). -/
  masked : Bool
  /-- `ctx.inTick` (R35). -/
  inTick : Bool
  /-- `gpio.dir` (R36) of the pins KDMX has set, by `pinKey`; 1 is output. -/
  dirs : Cells Level
  /-- `gpio.out` (R36) of the pins KDMX has written, by `pinKey`. -/
  outs : Cells Level
  /-- The command latch (R80): the frame of the command in flight. -/
  latch : Option Frame
  /-- The frames MAIN has yet to issue, in order (R8, R80). -/
  cmds : List Frame
  /-- The order of the coming steps; past its end the default of `State.turn` holds. -/
  sched : List Turn
  /-- ENV's answers to the coming reads, in order; past its end `Config.envDraw` answers. -/
  draws : List Level
  /-- How many reads the block has made. -/
  drawn : Nat
  /-- The observable trace, oldest first (R64, R72). -/
  trace : List Obs
  deriving DecidableEq, Repr

/-- Why the machine stops with a fault (R216). -/
inductive Fault where
  /-- Raised by a pin event of one unit on a pin bound to the other unit (R75). Safe: the chip has contention with an
  unknown level there. -/
  | pinConflict
  /-- Raised by a RAM access, or an access to the latched operands, at an index past the end (R66).
  Safe: no run reaches it. -/
  | ramIndex
  deriving DecidableEq, Repr

/-- Why the machine refuses an instruction. -/
inductive Refusal where
  /-- Raised by an arm of `exec` whose instruction has no meaning yet. Safe. -/
  | notModelled (mnemonic : String)
  /-- Raised by MD_ADVANCE outside TICK context and by a command inside it (R213). Safe: the ports let neither arise. -/
  | contextMisuse
  deriving DecidableEq, Repr

/-- What a step, a meaning or a pin primitive answers. -/
abbrev Out := Host.Outcome State Fault Refusal

/-- The KS registers after reset (R40). -/
def Ks.reset : Ks where
  configured := false
  geom := .g4x4
  k := 0
  lineGrp := ⟨0x0000, 0⟩
  colGrp := ⟨0x0000, 0⟩
  keyMap := []
  cand := 0xFF
  cnt := 0
  phase := .idle
  hit := none

/-- The MD registers after reset (R40). -/
def Md.reset : Md where
  configured := false
  portsSet := false
  n := 0
  pol := .cc
  dataGrp := ⟨0x0000, 0⟩
  ctrlGrp := ⟨0x0000, 0⟩
  act := .low
  buf := []
  sel := false
  idx := 0
  activeDigit := none
  uphase := .idle
  maskedDue := false

/-- The machine right after reset (R40, R230): every register at its reset value, every pin at GPIO_INIT, no command in
flight, and nothing from outside yet. -/
def State.reset : State where
  params := Config.params
  ks := Ks.reset
  md := Md.reset
  tickPending := false
  masked := false
  inTick := false
  dirs := []
  outs := []
  latch := none
  cmds := []
  sched := []
  draws := []
  drawn := 0
  trace := []

end Sys2Proof.Machine
end

