-- ==== Sys2Proof/Machine/Ops.lean ====
section
/-! DEFINITION. The shared operations: sparse stores and RAMs (R66), the pin primitives (R64) with the conflict check of
R75, responses and errors (R10, R92, R200–R202), and entering and leaving TICK context (R206–R209). -/

namespace Sys2Proof.Machine

/-! ### Sequencing outcomes -/

/-- `f` on the next state; a fault or a refusal stays. -/
def andThen (o : Out) (f : State → Out) : Out :=
  match o with
  | .next s => f s
  | .fault r => .fault r
  | .refused r => .refused r

/-- The next state, where there is one. -/
def nextOf (o : Out) : Option State :=
  match o with
  | .next s => some s
  | .fault _ => none
  | .refused _ => none

/-! ### Sparse stores and RAMs -/

/-- The keys rise strictly, so equal stores are equal lists. -/
abbrev Cells.wf {α : Type} (m : Cells α) : Prop := List.Pairwise (fun a b => a.1 < b.1) m

/-- The value at a key, if it is listed. -/
def Cells.get? {α : Type} (m : Cells α) (k : Nat) : Option α :=
  match m with
  | [] => none
  | (k', v) :: rest => if k = k' then some v else Cells.get? rest k

/-- List `v` at `k`, in place of what stood there. -/
def Cells.put {α : Type} (m : Cells α) (k : Nat) (v : α) : Cells α :=
  match m with
  | [] => [(k, v)]
  | (k', v') :: rest =>
    if k < k' then (k, v) :: (k', v') :: rest
    else if k = k' then (k, v) :: rest
    else (k', v') :: Cells.put rest k v

/-- List nothing at `k`. -/
def Cells.erase {α : Type} (m : Cells α) (k : Nat) : Cells α := m.filter fun c => c.1 ≠ k

/-- The canonical form of a RAM: addresses strictly rising, and no listed byte equal to what an unlisted address reads as. -/
abbrev Memory.wf (m : Memory) : Prop := Cells.wf m ∧ ∀ c ∈ m, c.2 ≠ 0#8

/-- Every listed address lies below `n`. -/
abbrev Memory.below (m : Memory) (n : Nat) : Prop := ∀ c ∈ m, c.1 < n

/-- What an unlisted address reads as (R40: the reset contents of both RAMs). -/
def Memory.unlisted : Byte := 0x00

/-- The byte at an address. -/
def Memory.read (m : Memory) (a : Nat) : Byte := (Cells.get? m a).getD Memory.unlisted

/-- `m` with byte `v` at address `a`, in canonical form. -/
def Memory.write (m : Memory) (a : Nat) (v : Byte) : Memory :=
  if v = Memory.unlisted then Cells.erase m a else Cells.put m a v

/-- `MemRead(keyMap, i, 1)` (R66): none at an index past the end. -/
def State.keyMapRead (s : State) (i : Nat) : Option Byte :=
  if i < Config.keyMapSize then some (Memory.read s.ks.keyMap i) else none

/-- `MemWrite(keyMap, i, 1, v)` (R66). -/
def keyMapWrite (i : Nat) (v : Byte) (s : State) : Out :=
  if i < Config.keyMapSize then .next { s with ks := { s.ks with keyMap := Memory.write s.ks.keyMap i v } }
  else .fault .ramIndex

/-- `MemWrite(keyMap, i + j, 1, vs[j])` for every j, in order (R113). -/
def keyMapLoad (i : Nat) (vs : List Byte) (s : State) : Out :=
  match vs with
  | [] => .next s
  | v :: rest => andThen (keyMapWrite i v s) (keyMapLoad (i + 1) rest)

/-- The address of entry d of buffer b (R30). -/
def bufAddr (b : Bool) (d : Nat) : Nat := Config.maxDigits * b.toNat + d

/-- `MemRead(buf[b], d, 1)` (R66): none at an index past the end. -/
def State.bufRead (s : State) (b : Bool) (d : Nat) : Option Byte :=
  if d < Config.maxDigits then some (Memory.read s.md.buf (bufAddr b d)) else none

/-- `MemWrite(buf[b], d, 1, v)` (R66). -/
def bufWrite (b : Bool) (d : Nat) (v : Byte) (s : State) : Out :=
  if d < Config.maxDigits then .next { s with md := { s.md with buf := Memory.write s.md.buf (bufAddr b d) v } }
  else .fault .ramIndex

/-! ### Pins -/

/-- The key of a pin in `dirs` and `outs`: a different one for every base and pin. -/
def pinKey (base : PortBase) (pin : Nat) : Nat := pin * 65536 + base.toNat

/-- `gpio.dir[base][pin]` (R36). -/
def State.pinDir (s : State) (base : PortBase) (pin : Nat) : Level :=
  (Cells.get? s.dirs (pinKey base pin)).getD (Config.gpioInitDir base pin)

/-- `gpio.out[base][pin]` (R36). -/
def State.pinOut (s : State) (base : PortBase) (pin : Nat) : Level :=
  (Cells.get? s.outs (pinKey base pin)).getD (Config.gpioInitOut base pin)

/-- The pin is one of the n pins of the group (R61). -/
def Group.has (g : Group) (n : Nat) (base : PortBase) (pin : Nat) : Bool :=
  base = g.base && g.first.toNat ≤ pin && pin < g.first.toNat + n

/-- The two units. -/
inductive Owner where
  | ks
  | md
  deriving DecidableEq, Repr

/-- The pin is bound to KS: KS is configured, and the pin is a line or a column (R75). -/
def State.ksBound (s : State) (base : PortBase) (pin : Nat) : Bool :=
  s.ks.configured && (s.ks.lineGrp.has s.ks.lines base pin || s.ks.colGrp.has s.ks.cols base pin)

/-- The pin is bound to MD: MD is configured and its ports are set, and the pin is a data or a select pin (R75). -/
def State.mdBound (s : State) (base : PortBase) (pin : Nat) : Bool :=
  s.md.configured && s.md.portsSet &&
    (s.md.dataGrp.has Config.portPins base pin || s.md.ctrlGrp.has s.md.n base pin)

/-- A pin event of unit `u` on this pin breaks UnitsDisjoint: the pin is bound to the other unit (R75). -/
def State.conflict (s : State) (u : Owner) (base : PortBase) (pin : Nat) : Bool :=
  match u with
  | .ks => s.mdBound base pin
  | .md => s.ksBound base pin

/-- One more observation at the end of the trace. -/
def State.emit (s : State) (e : Obs) : State := { s with trace := s.trace ++ [e] }

/-- `GpioWrite(base, pin, lv)` by unit `u` (R64). -/
def gpioWrite (u : Owner) (base : PortBase) (pin : Nat) (lv : Level) (s : State) : Out :=
  if s.conflict u base pin then .fault .pinConflict
  else .next ({ s with outs := Cells.put s.outs (pinKey base pin) lv }.emit (.write base pin lv))

/-- `GpioWrite` of `lvs` on consecutive pins from `pin` on, in order. -/
def gpioWriteRun (u : Owner) (base : PortBase) (pin : Nat) (lvs : List Level) (s : State) : Out :=
  match lvs with
  | [] => .next s
  | lv :: rest => andThen (gpioWrite u base pin lv s) (gpioWriteRun u base (pin + 1) rest)

/-- The pins a mask names, of the eight of a port (R61). -/
def maskPins (mask : Byte) : List Nat := (List.range Config.portPins).filter fun p => mask.getLsbD p

/-- The directions after `GpioSetDir`: every pin of the list takes its bit of `dirs`. -/
def putDirs (base : PortBase) (dirs : Byte) (pins : List Nat) (m : Cells Level) : Cells Level :=
  match pins with
  | [] => m
  | p :: rest => putDirs base dirs rest (Cells.put m (pinKey base p) (Level.ofBit (dirs.getLsbD p)))

/-- `GpioSetDir(base, mask, dirs)` by unit `u` (R64). -/
def gpioSetDir (u : Owner) (base : PortBase) (mask dirs : Byte) (s : State) : Out :=
  if (maskPins mask).any (s.conflict u base) then .fault .pinConflict
  else .next ({ s with dirs := putDirs base dirs (maskPins mask) s.dirs }.emit (.setDir base mask (dirs &&& mask)))

/-- ENV's answer to the j-th read from now (R64): the next one of `draws`, or an open value. -/
def State.drawAt (s : State) (j : Nat) (base : PortBase) (pin : Nat) : Level :=
  match s.draws[j]? with
  | some lv => lv
  | none => Config.envDraw (s.drawn + j) base pin

/-- `GpioRead(base, pin)` by unit `u` (R64): the level read is `s.drawAt 0 base pin`. -/
def gpioRead (u : Owner) (base : PortBase) (pin : Nat) (s : State) : Out :=
  if s.conflict u base pin then .fault .pinConflict
  else .next ({ s with draws := s.draws.drop 1, drawn := s.drawn + 1 }.emit (.read base pin (s.drawAt 0 base pin)))

/-! ### Responses, errors and contexts -/

/-- `respond(res, data)` (R10, R80): the command in flight is over, and its response is on the response port. -/
def respond (res : Result) (data : Byte) (s : State) : State :=
  { s with latch := none }.emit (.response res data)

/-- `raise Kind` (R10, R200, R202): the command ends at once, changing nothing and emitting no pin event. -/
def raise (kind : Result) (data : Byte) (s : State) : Out := .next (respond kind data s)

/-- A command is MAIN's alone (R213): inside TICK context it is refused. -/
def inMain (s : State) (body : Out) : Out := if s.inTick then .refused .contextMisuse else body

/-- MD_ADVANCE is TICK's alone (R213): outside TICK context it is refused. -/
def inTickContext (s : State) (body : Out) : Out := if s.inTick then body else .refused .contextMisuse

/-- TICK has a step (R206, R207): a tick is pending and not masked. -/
def State.tickReady (s : State) : Bool := s.tickPending && !s.masked

/-- Taking a tick (R206, R208): the pending bit is cleared and TICK context entered; nothing is saved. -/
def enterTick (s : State) : State := { s with tickPending := false, inTick := true }

/-- The end of a tick (R206, R209): TICK context is left, and nothing else is restored. -/
def leaveTick (s : State) : State := { s with inTick := false }

/-- A strobe of the tick input (R205): strobes coalesce in the one pending bit. -/
def strobe (s : State) : State := { s with tickPending := true }

/-- The reset of R230: every register at its value of R40, the command in flight and a pending tick gone.
The pins keep what they had, or the platform puts them back to GPIO_INIT (log entry 8). -/
def systemReset (pinsKept : Bool) (s : State) : State :=
  { s with
    ks := Ks.reset
    md := Md.reset
    tickPending := false
    masked := false
    inTick := false
    latch := none
    dirs := if pinsKept then s.dirs else []
    outs := if pinsKept then s.outs else [] }

end Sys2Proof.Machine
end

