-- ==== Sys2Proof/Machine/Operands.lean ====
section
/-! DEFINITION. The operand forms: enumerated codes (R91), group usability and overlap (R62, R63), pin masks, digit-buffer
entries (R158) and the segment output function (R166). -/

namespace Sys2Proof.Machine

/-- GEOM's codes (R85, R91): none is an illegal code. -/
def geometryOf (code : Byte) : Option Geometry :=
  if code = 0 then some .g4x4
  else if code = 1 then some .g4x3
  else if code = 2 then some .g5x3
  else none

/-- POL's codes (R87, R91). -/
def polarityOf (code : Byte) : Option Polarity :=
  if code = 0 then some .cc else if code = 1 then some .ca else none

/-- ACT's codes (R88, R91). -/
def activeLevelOf (code : Byte) : Option Level :=
  if code = 0 then some .low else if code = 1 then some .high else none

/-- VALID_PORT, never true of 0x0000 (R7). -/
def validPort (p : Params) (base : PortBase) : Bool := base ≠ 0 && p.validPorts.contains base

/-- `usable((base, firstByte), n)` (R62). -/
def usable (p : Params) (g : GroupOp) (n : Nat) : Bool :=
  g.base ≠ 0 && validPort p g.base && g.first.extractLsb' 3 5 = 0 && (g.first.extractLsb' 0 3).toNat + n ≤ 8

/-- The bound group of a descriptor: base, and bits 2:0 of the first-pin byte (R113, R155). -/
def boundGroup (g : GroupOp) : Group := ⟨g.base, g.first.extractLsb' 0 3⟩

/-- `overlap(g1, n1, g2, n2)` (R63). -/
def overlap (g1 : Group) (n1 : Nat) (g2 : Group) (n2 : Nat) : Bool :=
  g1.base = g2.base && g1.first.toNat < g2.first.toNat + n2 && g2.first.toNat < g1.first.toNat + n1

/-- `((1 << n) - 1) << first`, a u8 (R112, R156). -/
def groupMask (g : Group) (n : Nat) : Byte := BitVec.ofNat 8 (((1 <<< n) - 1) <<< g.first.toNat)

/-- INACTIVE_KP (R11). -/
def inactiveKp (p : Params) : Level := p.kpActive.inv

/-- A digit-buffer entry (R30): the active-high pattern of segments a (bit 0) to g (bit 6), and the decimal point. -/
structure Entry where
  seg : BitVec 7
  dp : Bool
  deriving DecidableEq, Repr

/-- The entry's byte in the digit-buffer RAM: the segments in bits 6:0, the point in bit 7 (R69, log entry 7). -/
def Entry.toByte (e : Entry) : Byte := BitVec.ofBool e.dp ++ e.seg

/-- The entry a byte of the digit-buffer RAM holds. -/
def Entry.ofByte (b : Byte) : Entry := ⟨b.extractLsb' 0 7, b.getLsbD 7⟩

/-- SEG_TABLE (R7, R158). -/
def segTable (p : Params) (v : Byte) : BitVec 7 := p.segTable.getD v.toNat 0

/-- `E(i)` from VAL[i] and PT[i] (R158, R91). -/
def updateEntry (p : Params) (val pt : Byte) : Entry := ⟨segTable p val, pt ≠ 0⟩

/-- `SEGOUT((seg, dp), pol)` (R166): the point is ORed in at bit 7, then common-anode inverts the byte. -/
def segOut (e : Entry) (pol : Polarity) : Byte :=
  let pat := e.seg.setWidth 8 ||| ((BitVec.ofBool e.dp).setWidth 8 <<< 7)
  match pol with
  | .ca => ~~~pat &&& 0xFF
  | .cc => pat

/-- The levels of a byte's bits on pins 0..7, pin 0 first (R67, R164). -/
def byteLevels (b : Byte) : List Level := (List.range Config.portPins).map fun p => Level.ofBit (b.getLsbD p)

/-- `blank(pol)` (R11): the level of an unlit segment's pin. -/
def blank (pol : Polarity) : Level :=
  match pol with
  | .ca => .high
  | .cc => .low

end Sys2Proof.Machine
end

