-- ==== Sys2Proof/Machine/Flags.lean ====
section
/-! DEFINITION. The conditions commands compute: the debounce counter and the report condition (R121, R122), and the first
failing check of each command (R111, R150, R153, R157, R203). KDMX has no arithmetic flags (R38). -/

namespace Sys2Proof.Machine

/-- `0xFF`, "no key" (R12). -/
def noKey : Byte := 0xFF

/-- What DECIDE leaves in ks.cand and ks.cnt, and what it answers. -/
structure Debounce where
  cand : Byte
  cnt : Nat
  out : Byte
  deriving DecidableEq, Repr

/-- DECIDE parts 2 and 3 (R121, R122), from REPORT_MODE, ks.K, ks.cand, ks.cnt and the new candidate. -/
def debounce (mode : ReportMode) (k : Nat) (cand : Byte) (cnt : Nat) (new : Byte) : Debounce :=
  let fresh : Bool := if new = cand then cnt < k else true
  let cnt' := if new = cand then (if cnt < k then cnt + 1 else cnt) else 1
  let reached : Bool := fresh && cnt' = k
  let report : Bool := match mode with
    | .edge => reached
    | .held => cnt' = k
  ⟨new, cnt', if report && new ≠ noKey then new else noKey⟩

/-- KS_VALIDATE (R111): the geometry, or the first failing check's kind. -/
def ksValidate (p : Params) (geom k : Byte) (lines cols : GroupOp) (map : List Byte) : Except Result Geometry :=
  match geometryOf geom with
  | none => .error .invalidGeometry
  | some g =>
    if map.length ≠ g.lines * g.cols then .error .invalidGeometry
    else if k = 0 then .error .invalidArgument
    else if !usable p lines g.lines then .error .portsNotSet
    else if !usable p cols g.cols then .error .portsNotSet
    else if overlap (boundGroup lines) g.lines (boundGroup cols) g.cols then .error .portsNotSet
    else .ok g

/-- MD_CONFIGURE's checks (R150): the polarity, or the first failing check's kind. -/
def mdValidate (ndig pol : Byte) : Except Result Polarity :=
  if ndig.toNat < 2 ∨ 8 < ndig.toNat then .error .invalidGeometry
  else match polarityOf pol with
    | none => .error .invalidArgument
    | some q => .ok q

/-- MD_SETPORTS's checks (R153, R154): the active level, or the first failing check's kind. -/
def portsValidate (p : Params) (md : Md) (data ctrl : GroupOp) (act : Byte) : Except Result Level :=
  if !md.configured then .error .notConfigured
  else match activeLevelOf act with
    | none => .error .invalidArgument
    | some lv =>
      if !usable p data Config.portPins then .error .portsNotSet
      else if !usable p ctrl md.n then .error .portsNotSet
      else if overlap (boundGroup data) Config.portPins (boundGroup ctrl) md.n then .error .portsNotSet
      else .ok lv

/-- MD_UPDATE's checks (R157): the first failing check's kind, if one fails. -/
def updateValidate (md : Md) (vals pts : List Byte) : Except Result Unit :=
  if !md.configured then .error .notConfigured
  else if vals.length ≠ md.n ∨ pts.length ≠ md.n then .error .invalidArgument
  else .ok ()

end Sys2Proof.Machine
end

