-- ==== Sys2Proof/Machine/Display.lean ====
section
/-! DEFINITION. The MD commands (spec 41_display.md): MD_CONFIGURE and MD_SETPORTS, one micro-step each; MD_UPDATE, whose
meaning is the micro-step that `md.uphase` (SWAP) or `md.maskedDue` (MASK) names; and MD_ADVANCE, the tick. -/

namespace Sys2Proof.Machine

/-- `GpioWrite(xb, xf + a, !md.act)` if md.activeDigit is some a (R151, R155, R164). -/
def deselect (s : State) : Out :=
  match s.md.activeDigit with
  | none => .next s
  | some a => gpioWrite .md s.md.ctrlGrp.base (s.md.ctrlGrp.first.toNat + a) s.md.act.inv s

/-- The deselect of a bound display, before a new configuration or binding (R151, R155). -/
def deselectBound (s : State) : Out := if s.md.portsSet then deselect s else .next s

/-! ### MD_CONFIGURE -/

/-- MD_CONFIG_COMMIT's registers (R151). All 16 entries of the digit buffer read (0, 0). -/
def mdCommitRegs (n : Nat) (pol : Polarity) (s : State) : State :=
  { s with
    md := { s.md with
      activeDigit := none
      portsSet := false
      n := n
      pol := pol
      buf := []
      sel := false
      idx := 0
      uphase := .idle
      maskedDue := false
      configured := true } }

/-- MD_CONFIGURE (R150). -/
def execMdConfigure (ndig pol : Byte) (s : State) : Out :=
  inMain s <|
  match mdValidate ndig pol with
  | .error kind => raise kind 0x00 s
  | .ok q =>
    andThen (deselectBound s) fun s1 =>
    .next (respond .ok 0x00 (mdCommitRegs ndig.toNat q s1))

/-! ### MD_SETPORTS -/

/-- MD_PORTS_COMMIT's registers (R155). -/
def portsCommitRegs (data ctrl : GroupOp) (act : Level) (s : State) : State :=
  { s with
    md := { s.md with
      activeDigit := none
      dataGrp := boundGroup data
      ctrlGrp := boundGroup ctrl
      act := act
      portsSet := true } }

/-- MD_PORTS_INIT (R156): select lines inactive, then outputs; data bus blank, then outputs. -/
def portsInit (s : State) : Out :=
  let ctrlMask := groupMask s.md.ctrlGrp s.md.n
  andThen (gpioWriteRun .md s.md.ctrlGrp.base s.md.ctrlGrp.first.toNat
      (List.replicate s.md.n s.md.act.inv) s) fun s1 =>
  andThen (gpioSetDir .md s.md.ctrlGrp.base ctrlMask ctrlMask s1) fun s2 =>
  andThen (gpioWriteRun .md s.md.dataGrp.base s.md.dataGrp.first.toNat
      (List.replicate Config.portPins (blank s.md.pol)) s2) fun s3 =>
  gpioSetDir .md s.md.dataGrp.base 0xFF 0xFF s3

/-- MD_SETPORTS (R153). -/
def execMdSetPorts (data ctrl : GroupOp) (act : Byte) (s : State) : Out :=
  inMain s <|
  match portsValidate s.params s.md data ctrl act with
  | .error kind => raise kind 0x00 s
  | .ok lv =>
    andThen (deselectBound s) fun s1 =>
    andThen (portsInit (portsCommitRegs data ctrl lv s1)) fun s2 =>
    .next (respond .ok 0x00 s2)

/-! ### MD_UPDATE -/

/-- `md.uphase <- u`. -/
def setUPhase (u : UPhase) (s : State) : State := { s with md := { s.md with uphase := u } }

/-- `ctx.masked <- m`. -/
def setMasked (m : Bool) (s : State) : State := { s with masked := m }

/-- The position of a MASK update between UPD_ENTRY and UPD_MASKED (log entry 6). -/
def setMaskedDue (m : Bool) (s : State) : State := { s with md := { s.md with maskedDue := m } }

/-- `MemWrite(buf[b], i, 1, E(i))` (R158, R160, R162). -/
def writeEntry (vals pts : List Byte) (b : Bool) (i : Nat) (s : State) : Out :=
  match vals[i]?, pts[i]? with
  | some v, some p => bufWrite b i (updateEntry s.params v p).toByte s
  | _, _ => .fault .ramIndex

/-- `writeEntry` at i, i + 1, …, `todo` times (R162). -/
def writeEntries (vals pts : List Byte) (b : Bool) (todo i : Nat) (s : State) : Out :=
  match todo with
  | 0 => .next s
  | n + 1 => andThen (writeEntry vals pts b i s) (writeEntries vals pts b n (i + 1))

/-- UPD_ENTRY (R157). -/
def updEntry (vals pts : List Byte) (s : State) : Out :=
  match updateValidate s.md vals pts with
  | .error kind => raise kind 0x00 s
  | .ok _ =>
    match s.params.cdcScheme with
    | .swap => .next (setUPhase (.write 0) s)
    | .mask => .next (setMaskedDue true s)

/-- WRITE(i) (R160): the shadow buffer's entry i. -/
def updWrite (vals pts : List Byte) (i : Nat) (s : State) : Out :=
  andThen (writeEntry vals pts (!s.md.sel) i s) fun s1 =>
  .next (setUPhase (if i + 1 < s1.md.n then .write (i + 1) else .commit) s1)

/-- COMMIT (R161): the one atomic swap. -/
def updCommit (s : State) : Out :=
  .next (respond .ok 0x00 { s with md := { s.md with sel := !s.md.sel, uphase := .idle } })

/-- UPD_MASKED (R162): the whole copy with the tick masked. -/
def updMasked (vals pts : List Byte) (s : State) : Out :=
  andThen (writeEntries vals pts s.md.sel s.md.n 0 (setMasked true s)) fun s1 =>
  .next (respond .ok 0x00 (setMaskedDue false (setMasked false s1)))

/-- MD_UPDATE (R157, R160–R162): the micro-step the update's position names; UPD_ENTRY when none is under way. -/
def execMdUpdate (vals pts : List Byte) (s : State) : Out :=
  inMain s <|
  if s.md.maskedDue then updMasked vals pts s
  else match s.md.uphase with
    | .idle => updEntry vals pts s
    | .write i => updWrite vals pts i s
    | .commit => updCommit s

/-! ### MD_ADVANCE -/

/-- MD_REFRESH (R164): break, segment bus, make, then the round-robin of R165. -/
def mdRefresh (s : State) : Out :=
  andThen (deselect s) fun s1 =>
  match s1.bufRead s1.md.sel s1.md.idx with
  | none => .fault .ramIndex
  | some b =>
    andThen (gpioWriteRun .md s1.md.dataGrp.base s1.md.dataGrp.first.toNat
        (byteLevels (segOut (Entry.ofByte b) s1.md.pol)) s1) fun s2 =>
    andThen (gpioWrite .md s2.md.ctrlGrp.base (s2.md.ctrlGrp.first.toNat + s2.md.idx) s2.md.act s2) fun s3 =>
    .next { s3 with
      md := { s3.md with activeDigit := some s3.md.idx, idx := (s3.md.idx + 1) % s3.md.n } }

/-- MD_ADVANCE (R163): a no-op unless the unit is configured and its ports are set. -/
def execMdAdvance (s : State) : Out :=
  inTickContext s <|
  if s.md.configured && s.md.portsSet then mdRefresh s else .next s

end Sys2Proof.Machine
end

