-- ==== Sys2Proof/Machine/Keypad.lean ====
section
/-! DEFINITION. The KS commands (spec 40_keypad.md): KS_CONFIGURE, one micro-step, and KS_POLL, whose meaning is the
micro-step that `ks.phase` names. -/

namespace Sys2Proof.Machine

/-! ### KS_CONFIGURE -/

/-- KS_COMMIT's registers (R113); the key map is loaded by `keyMapLoad`. -/
def ksCommitRegs (g : Geometry) (k : Byte) (lines cols : GroupOp) (s : State) : State :=
  { s with
    ks := { s.ks with
      geom := g
      k := k.toNat
      lineGrp := boundGroup lines
      colGrp := boundGroup cols
      cand := noKey
      cnt := 0
      phase := .idle
      hit := none } }

/-- KS_PIN_INIT (R112): lines inactive, then outputs; columns inputs, then pulled toward released. -/
def ksPinInit (s : State) : Out :=
  let lineMask := groupMask s.ks.lineGrp s.ks.lines
  let colMask := groupMask s.ks.colGrp s.ks.cols
  andThen (gpioWriteRun .ks s.ks.lineGrp.base s.ks.lineGrp.first.toNat
      (List.replicate s.ks.lines (inactiveKp s.params)) s) fun s1 =>
  andThen (gpioSetDir .ks s.ks.lineGrp.base lineMask lineMask s1) fun s2 =>
  andThen (gpioSetDir .ks s.ks.colGrp.base colMask 0x00 s2) fun s3 =>
  gpioWriteRun .ks s.ks.colGrp.base s.ks.colGrp.first.toNat (List.replicate s.ks.cols (inactiveKp s.params)) s3

/-- `ks.configured <- 1` (R110). -/
def ksSetConfigured (s : State) : State := { s with ks := { s.ks with configured := true } }

/-- KS_CONFIGURE (R110). -/
def execKsConfigure (geom k : Byte) (lines cols : GroupOp) (map : List Byte) (s : State) : Out :=
  inMain s <|
  match ksValidate s.params geom k lines cols map with
  | .error kind => raise kind 0x00 s
  | .ok g =>
    andThen (keyMapLoad 0 map (ksCommitRegs g k lines cols s)) fun s1 =>
    andThen (ksPinInit s1) fun s2 =>
    .next (respond .ok 0x00 (ksSetConfigured s2))

/-! ### KS_POLL -/

/-- `ks.phase <- p`. -/
def setPhase (p : Phase) (s : State) : State := { s with ks := { s.ks with phase := p } }

/-- POLL_ENTRY (R114). -/
def pollEntry (s : State) : Out :=
  if s.ks.configured then .next { s with ks := { s.ks with hit := none, phase := .drive 0 } }
  else raise .notConfigured noKey s

/-- DRIVE(l) (R116). -/
def pollDrive (l : Nat) (s : State) : Out :=
  andThen (gpioWrite .ks s.ks.lineGrp.base (s.ks.lineGrp.first.toNat + l) s.params.kpActive s) fun s1 =>
  .next (setPhase (.settle l) s1)

/-- SETTLE(l) (R117). -/
def pollSettle (l : Nat) (s : State) : Out := .next (setPhase (.sample l 0) s)

/-- ks.hit after SAMPLE(l, c) has read `lv` (R118). -/
def sampleHit (p : Params) (ks : Ks) (l c : Nat) (lv : Level) : Option Nat :=
  if lv = p.kpActive ∧ ks.hit = none then some (l * ks.cols + c) else ks.hit

/-- SAMPLE(l, c) (R118). -/
def pollSample (l c : Nat) (s : State) : Out :=
  let lv := s.drawAt 0 s.ks.colGrp.base (s.ks.colGrp.first.toNat + c)
  andThen (gpioRead .ks s.ks.colGrp.base (s.ks.colGrp.first.toNat + c) s) fun s1 =>
  .next { s1 with
    ks := { s1.ks with
      hit := sampleHit s1.params s1.ks l c lv
      phase := if c + 1 < s1.ks.cols then .sample l (c + 1) else .release l } }

/-- RELEASE(l) (R119). -/
def pollRelease (l : Nat) (s : State) : Out :=
  andThen (gpioWrite .ks s.ks.lineGrp.base (s.ks.lineGrp.first.toNat + l) (inactiveKp s.params) s) fun s1 =>
  .next (setPhase (if l + 1 < s1.ks.lines then .drive (l + 1) else .decide) s1)

/-- `cand_new` (R120): none where the hit lies past the end of the key map. -/
def State.candidate (s : State) : Option Byte :=
  match s.ks.hit with
  | none => some noKey
  | some i => s.keyMapRead i

/-- DECIDE (R120–R123). -/
def pollDecide (s : State) : Out :=
  match s.candidate with
  | none => .fault .ramIndex
  | some new =>
    let d := debounce s.params.reportMode s.ks.k s.ks.cand s.ks.cnt new
    .next (respond .ok d.out { s with ks := { s.ks with cand := d.cand, cnt := d.cnt, phase := .idle } })

/-- KS_POLL (R114, R115): the micro-step ks.phase names; POLL_ENTRY when it is IDLE. -/
def execKsPoll (s : State) : Out :=
  inMain s <|
  match s.ks.phase with
  | .idle => pollEntry s
  | .drive l => pollDrive l s
  | .settle l => pollSettle l s
  | .sample l c => pollSample l c s
  | .release l => pollRelease l s
  | .decide => pollDecide s

end Sys2Proof.Machine
end

