-- ==== Sys2Proof/Machine/Dispatch.lean ====
section
/-! DEFINITION. One arm per instruction of the opcode table (spec 30_encoding.md R82). -/

namespace Sys2Proof.Machine

def exec (i : Instr) (s : State) : Host.Outcome State Fault Refusal :=
  match i with
  | .ksConfigure geom k lines cols map => Sys2Proof.Machine.execKsConfigure geom k lines cols map s
  | .ksPoll => Sys2Proof.Machine.execKsPoll s
  | .mdConfigure ndig pol => Sys2Proof.Machine.execMdConfigure ndig pol s
  | .mdSetPorts data ctrl act => Sys2Proof.Machine.execMdSetPorts data ctrl act s
  | .mdUpdate vals pts => Sys2Proof.Machine.execMdUpdate vals pts s
  | .mdAdvance => Sys2Proof.Machine.execMdAdvance s

end Sys2Proof.Machine
end

