-- ==== Sys2Proof/Machine/Agents.lean ====
section
/-! DEFINITION. The agents that step (spec 00_scope.md R8; 20_memory.md R72; 60_exceptions.md R205–R211): MAIN runs the
command in the latch, TICK runs MD_ADVANCE, TickSource strobes, and the platform resets. -/

namespace Sys2Proof.Machine

/-- The command latch as MAIN's next micro-step finds it (R80): the frame in flight, or the next one MAIN issues. -/
def State.issue (s : State) : State :=
  match s.latch, s.cmds with
  | none, f :: rest => { s with latch := some f, cmds := rest }
  | _, _ => s

/-- MAIN's next micro-step (R8, R80, R97): the latched frame is decoded and its instruction runs; an illegal frame is
answered IllegalCommand (R93); with no frame MAIN is idle. -/
def mainStep (s : State) : Out :=
  match s.issue.latch with
  | none => .next s.issue
  | some f =>
    match decodeFrame .command f with
    | .ok i => exec i s.issue
    | .error _ => raise .illegalCommand 0x00 s.issue

/-- TICK's step (R206), if it has one (R207). -/
def tickStep (s : State) : Out :=
  if s.tickReady then andThen (exec .mdAdvance (enterTick s)) fun t => .next (leaveTick t)
  else .next s

/-- One turn. -/
def runTurn (t : Turn) (s : State) : Out :=
  match t with
  | .main => mainStep s
  | .tick => tickStep s
  | .strobe => .next (strobe s)
  | .reset pinsKept => .next (systemReset pinsKept s)

/-- The turn a state takes next: the head of `sched`; past its end, TICK when it has a step and MAIN otherwise, which is
weakly fair (R206, log entry 2). -/
def State.turn (s : State) : Turn :=
  match s.sched with
  | t :: _ => t
  | [] => if s.tickReady then .tick else .main

/-- The state with this turn taken off `sched`. -/
def State.popTurn (s : State) : State := { s with sched := s.sched.drop 1 }

/-- One step of the machine: the next turn of the interleaving (R72, R211). -/
def takeTurn (s : State) : Out := runTurn s.turn s.popTurn

/-- A frame in the latch and no command under way, so that MAIN's next micro-step is its first (R26, R33). -/
def State.latchFrame (s : State) (f : Frame) : State :=
  { s with
    latch := some f
    ks := { s.ks with phase := .idle }
    md := { s.md with uphase := .idle, maskedDue := false }
    inTick := false
    sched := .main :: s.sched }

/-- A tick pending and TICK's turn, so that the next step runs MD_ADVANCE. -/
def State.pendTick (s : State) : State :=
  { s with tickPending := true, masked := false, inTick := false, sched := .tick :: s.sched }

/-- The frame of a word of opcode_table.json where the next step finds it: in the command latch, or, for a word the table
gives to the tick input, as a pending tick. -/
def State.placeWord (s : State) (nbits w : Nat) : State :=
  match tablePort nbits w with
  | .command => s.latchFrame (tableFrame nbits w)
  | .tick => s.pendTick

end Sys2Proof.Machine
end

