-- ==== Sys2Proof/Machine/Step.lean ====
section
/-! DEFINITION. The step function, and where it finds its next instruction. -/

namespace Sys2Proof.Machine

/-- One step: the next turn of the interleaving of MAIN, TICK, strobes and resets (R72). -/
def step (s : State) : Host.Outcome State Fault Refusal := takeTurn s

/-- `s` with the instruction of a word of opcode_table.json placed where the next step runs it. -/
def State.withFetchWord (s : State) (nbits w : Nat) : State := s.placeWord nbits w

end Sys2Proof.Machine
end

