-- ==== Sys2Proof/Safety.lean ====
section
/-! DEFINITION. What a safe run is, in the terms the statements use: the invariants of KDMX (spec 10_state.md R28, R34, R35;
20_memory.md R66, R75), the events and results commands are to have, and runs of one agent or of an interleaving. -/

namespace Sys2Proof.Machine

/-! ### Invariants -/

/-- Both RAMs and both pin stores are in canonical form, and no RAM lists an address past its end (R22, R30). -/
abbrev State.RamInv (s : State) : Prop :=
  Memory.wf s.ks.keyMap ∧ Memory.below s.ks.keyMap Config.keyMapSize ∧
  Memory.wf s.md.buf ∧ Memory.below s.md.buf (2 * Config.maxDigits) ∧
  Cells.wf s.dirs ∧ Cells.wf s.outs

/-- The line the phase holds active: line l in SETTLE(l), SAMPLE(l, c) and RELEASE(l), none elsewhere (R28). -/
def Phase.activeLine : Phase → Option Nat
  | .idle => none
  | .drive _ => none
  | .settle l => some l
  | .sample l _ => some l
  | .release l => some l
  | .decide => none

/-- The line and column of the phase lie inside the geometry (R26). -/
def Phase.inRange (p : Phase) (g : Geometry) : Bool :=
  match p with
  | .idle => true
  | .drive l => l < g.lines
  | .settle l => l < g.lines
  | .sample l c => l < g.lines && c < g.cols
  | .release l => l < g.lines
  | .decide => true

/-- The absolute pin of line i. -/
def State.linePin (s : State) (i : Nat) : Nat := s.ks.lineGrp.first.toNat + i

/-- The absolute pin of column j. -/
def State.colPin (s : State) (j : Nat) : Nat := s.ks.colGrp.first.toNat + j

/-- The absolute pin of digit d's select line. -/
def State.selectPin (s : State) (d : Nat) : Nat := s.md.ctrlGrp.first.toNat + d

/-- The absolute pin of segment bit b. -/
def State.dataPin (s : State) (b : Nat) : Nat := s.md.dataGrp.first.toNat + b

/-- Every line pin is an output, at KP_ACTIVE exactly if the phase holds it active; every column pin is an input (R28, R76). -/
abbrev State.LinesInv (s : State) : Prop :=
  (∀ i < s.ks.lines, s.pinDir s.ks.lineGrp.base (s.linePin i) = .high ∧
    s.pinOut s.ks.lineGrp.base (s.linePin i) =
      if s.ks.phase.activeLine = some i then s.params.kpActive else inactiveKp s.params) ∧
  (∀ j < s.ks.cols, s.pinDir s.ks.colGrp.base (s.colPin j) = .low)

/-- KS's registers while it is configured (R28). -/
abbrev State.KsInv (s : State) : Prop :=
  s.ks.configured = true →
    1 ≤ s.ks.k ∧ s.ks.k ≤ Config.kMax ∧ s.ks.cnt ≤ s.ks.k ∧
    s.ks.lineGrp.first.toNat + s.ks.lines ≤ Config.portPins ∧
    s.ks.colGrp.first.toNat + s.ks.cols ≤ Config.portPins ∧
    overlap s.ks.lineGrp s.ks.lines s.ks.colGrp s.ks.cols = false ∧
    s.LinesInv

/-- KS's position in a scan cycle: inside the geometry, the hit a key-map index, and away from IDLE only while a KS_POLL of a
configured unit is in flight (R26, R27). -/
abbrev State.ScanInv (s : State) : Prop :=
  s.ks.phase.inRange s.ks.geom = true ∧
  s.ks.hit.all (fun h => h < s.ks.lines * s.ks.cols) = true ∧
  (s.ks.phase ≠ .idle → s.ks.configured = true ∧ s.latch = some (encodeFrame .ksPoll))

/-- Every select pin and every data pin is an output, and a select pin is at md.act exactly if its digit is the active one
(R34). -/
abbrev State.SelectInv (s : State) : Prop :=
  (∀ d < s.md.n, s.pinDir s.md.ctrlGrp.base (s.selectPin d) = .high ∧
    s.pinOut s.md.ctrlGrp.base (s.selectPin d) =
      if s.md.activeDigit = some d then s.md.act else s.md.act.inv) ∧
  (∀ b < Config.portPins, s.pinDir s.md.dataGrp.base (s.dataPin b) = .high)

/-- MD's registers (R34). -/
abbrev State.MdInv (s : State) : Prop :=
  (s.md.configured = true → 2 ≤ s.md.n ∧ s.md.n ≤ Config.maxDigits ∧ s.md.idx < s.md.n) ∧
  (s.md.activeDigit.all (fun d => s.md.portsSet && d < s.md.n) = true) ∧
  (s.md.portsSet = true →
    s.md.configured = true ∧
    s.md.dataGrp.first.toNat + Config.portPins ≤ Config.portPins ∧
    s.md.ctrlGrp.first.toNat + s.md.n ≤ Config.portPins ∧
    overlap s.md.dataGrp Config.portPins s.md.ctrlGrp s.md.n = false ∧
    s.SelectInv)

/-- UnitsDisjoint (R75): no line or column pin is bound to MD. -/
abbrev State.UnitsDisjoint (s : State) : Prop :=
  s.ks.configured = true →
    (∀ i < s.ks.lines, s.mdBound s.ks.lineGrp.base (s.linePin i) = false) ∧
    (∀ j < s.ks.cols, s.mdBound s.ks.colGrp.base (s.colPin j) = false)

/-- The operands of the MD_UPDATE in the latch, if that is what is in flight (R33). -/
def State.latchedUpdate (s : State) : Option (List Byte × List Byte) :=
  match s.latch with
  | none => none
  | some f =>
    match decodeFrame .command f with
    | .ok (.mdUpdate vals pts) => some (vals, pts)
    | _ => none

/-- How many entries of the shadow buffer the update in flight has written. -/
def State.shadowFilled (s : State) : Nat :=
  match s.md.uphase with
  | .idle => 0
  | .write i => i
  | .commit => s.md.n

/-- The entry the active buffer holds for digit d: the one MD_ADVANCE shows (R30). -/
def State.activeEntry (s : State) (d : Nat) : Option Byte := s.bufRead s.md.sel d

/-- The entry the shadow buffer holds for digit d (R30). -/
def State.shadowEntry (s : State) (d : Nat) : Option Byte := s.bufRead (!s.md.sel) d

/-- The byte of `E(d)` (R158). -/
def updateByte (p : Params) (vals pts : List Byte) (d : Nat) : Byte :=
  (updateEntry p (vals.getD d 0) (pts.getD d 0)).toByte

/-- An update is under way: UPD_ENTRY has run, and its last micro-step has not. -/
def State.updating (s : State) : Bool := s.md.maskedDue || s.md.uphase ≠ .idle

/-- A position a SWAP or a MASK update can have (R33, R157). -/
def State.updatePositionOk (s : State) : Bool :=
  match s.md.uphase with
  | .idle => !s.md.maskedDue || s.params.cdcScheme = .mask
  | .write i => !s.md.maskedDue && s.params.cdcScheme = .swap && i < s.md.n
  | .commit => !s.md.maskedDue && s.params.cdcScheme = .swap

/-- MD's position in an update: an MD_UPDATE of md.N values and points is in flight, and the shadow entries written so far
are its entries (R33, R160). -/
abbrev State.UpdateInv (s : State) : Prop :=
  s.updatePositionOk = true ∧
  (s.updating = true →
    s.md.configured = true ∧ s.latchedUpdate.isSome = true ∧
    (s.latchedUpdate.getD ([], [])).1.length = s.md.n ∧ (s.latchedUpdate.getD ([], [])).2.length = s.md.n ∧
    ∀ d < s.shadowFilled, s.shadowEntry d =
      some (updateByte s.params (s.latchedUpdate.getD ([], [])).1 (s.latchedUpdate.getD ([], [])).2 d))

/-- Between two steps TICK does not run and the tick is not masked (R35, R207). -/
abbrev State.ContextInv (s : State) : Prop := s.masked = false ∧ s.inTick = false

/-- The invariant of KDMX at every micro-step boundary. -/
abbrev State.Inv (s : State) : Prop :=
  s.RamInv ∧ s.KsInv ∧ s.ScanInv ∧ s.MdInv ∧ s.UnitsDisjoint ∧ s.UpdateInv ∧ s.ContextInv

/-! ### Answers, frames and events -/

/-- The payload length R83 gives for a frame's opcode; a length byte the payload is too short to hold counts as 0. -/
def requiredLength (f : Frame) : Nat :=
  if f.opcode = 0x01 then 9 + (f.payload.getD 8 0).toNat
  else if f.opcode = 0x11 then 2
  else if f.opcode = 0x12 then 7
  else if f.opcode = 0x13 then 2 + (f.payload.getD 0 0).toNat + (f.payload.getD 1 0).toNat
  else 0

/-- The frame is legal on the command port: an opcode of R82 accepted there, and a payload of the length R83 gives. -/
abbrev LegalFrame (f : Frame) : Prop := f.opcode ∈ commandOpcodes ∧ f.payload.length = requiredLength f

/-- The command is answered with an error and changes nothing: only its response joins the trace and the latch is free
again (R202). -/
abbrev AnswersError (i : Instr) (s : State) (kind : Result) (data : Byte) : Prop :=
  exec i s = .next { s with latch := none, trace := s.trace ++ [.response kind data] }

/-- Everything outside the units, the pins, the latch and the trace is the same. -/
abbrev SameOutside (s t : State) : Prop :=
  t.params = s.params ∧ t.tickPending = s.tickPending ∧ t.masked = s.masked ∧ t.inTick = s.inTick ∧
  t.cmds = s.cmds ∧ t.sched = s.sched ∧ t.draws = s.draws ∧ t.drawn = s.drawn

/-- Every pin is the same. -/
abbrev SamePins (s t : State) : Prop :=
  ∀ base pin, t.pinDir base pin = s.pinDir base pin ∧ t.pinOut base pin = s.pinOut base pin

/-- `GpioWrite` of one level on n pins of a group, as events. -/
def groupWrites (g : Group) (n : Nat) (lv : Level) : List Obs :=
  (List.range n).map fun i => .write g.base (g.first.toNat + i) lv

/-- The pin events of a successful KS_CONFIGURE (R112). -/
def ksPinInitEvents (lines cols : Group) (l c : Nat) (lv : Level) : List Obs :=
  groupWrites lines l lv ++
    [.setDir lines.base (groupMask lines l) (groupMask lines l), .setDir cols.base (groupMask cols c) 0x00] ++
    groupWrites cols c lv

/-- The event that deselects the lit digit, if one is lit (R151, R155, R164). -/
def deselectEvents (md : Md) : List Obs :=
  match md.activeDigit with
  | none => []
  | some a => [.write md.ctrlGrp.base (md.ctrlGrp.first.toNat + a) md.act.inv]

/-- The pin events of MD_PORTS_INIT (R156). -/
def portsInitEvents (data ctrl : Group) (n : Nat) (act : Level) (pol : Polarity) : List Obs :=
  groupWrites ctrl n act.inv ++ [.setDir ctrl.base (groupMask ctrl n) (groupMask ctrl n)] ++
    groupWrites data Config.portPins (blank pol) ++ [.setDir data.base 0xFF 0xFF]

/-- The pin events of MD_REFRESH showing entry `e` at digit `d` (R164). -/
def refreshEvents (md : Md) (e : Entry) (d : Nat) : List Obs :=
  deselectEvents md ++
    (List.range Config.portPins).map (fun b =>
      .write md.dataGrp.base (md.dataGrp.first.toNat + b) (Level.ofBit ((segOut e md.pol).getLsbD b))) ++
    [.write md.ctrlGrp.base (md.ctrlGrp.first.toNat + d) md.act]

/-- What column c answers at the read of SAMPLE(l, c) of a poll that starts in `s` (R115, R118). -/
def State.readLevel (s : State) (l c : Nat) : Level := s.drawAt (l * s.ks.cols + c) s.ks.colGrp.base (s.colPin c)

/-- The pin events of a configured KS_POLL that starts in `s` (R126). -/
def pollEvents (s : State) : List Obs :=
  (List.range s.ks.lines).flatMap fun l =>
    .write s.ks.lineGrp.base (s.linePin l) s.params.kpActive ::
      ((List.range s.ks.cols).map (fun c => .read s.ks.colGrp.base (s.colPin c) (s.readLevel l c)) ++
        [.write s.ks.lineGrp.base (s.linePin l) (inactiveKp s.params)])

/-- The raw index of the first active pair in line-major then column-major order (R27, R125). -/
def firstActive (s : State) : Option Nat :=
  (List.range (s.ks.lines * s.ks.cols)).find? fun i => s.readLevel (i / s.ks.cols) (i % s.ks.cols) = s.params.kpActive

/-- The candidate of a poll that starts in `s` (R120). -/
def pollCandidate (s : State) : Byte :=
  match firstActive s with
  | none => noKey
  | some i => Memory.read s.ks.keyMap i

/-- Micro-steps of a configured KS_POLL (R115). -/
def pollSteps (g : Geometry) : Nat := 1 + g.lines * (g.cols + 3) + 1

/-- The responses of a trace, in order. -/
def responses (tr : List Obs) : List (Result × Byte) :=
  tr.filterMap fun o => match o with
    | .response res data => some (res, data)
    | _ => none

/-- The level the last of some events leaves in the output latch of a pin; `lv` if none writes it. -/
def replayPin (evs : List Obs) (base : PortBase) (pin : Nat) (lv : Level) : Level :=
  evs.foldl (fun cur o => match o with
    | .write b p v => if b = base ∧ p = pin then v else cur
    | _ => cur) lv

/-- How many select lines are at md.act once `evs` have followed the state `s`. -/
def selectsActive (s : State) (evs : List Obs) : Nat :=
  ((List.range s.md.n).filter fun d =>
    replayPin evs s.md.ctrlGrp.base (s.selectPin d) (s.pinOut s.md.ctrlGrp.base (s.selectPin d)) = s.md.act).length

/-! ### Runs -/

/-- The same instruction's micro-step, n times. -/
def iterExec (i : Instr) (n : Nat) (s : State) : Out :=
  match n with
  | 0 => .next s
  | k + 1 => andThen (exec i s) (iterExec i k)

/-- Given turns in order, whatever `sched` says: one interleaving of the agents (R72, R211). -/
def runTurns (ts : List Turn) (s : State) : Out :=
  match ts with
  | [] => .next s
  | t :: rest => andThen (runTurn t s) (runTurns rest)

/-- No reset among the turns. -/
def Turn.running : Turn → Bool
  | .main => true
  | .tick => true
  | .strobe => true
  | .reset _ => false

/-- The turns that are MAIN's. -/
def mainOnly (ts : List Turn) : List Turn := ts.filter fun t => t = .main

/-- Whole configured polls, one after another: the candidate each decoded and the byte each answered. -/
def pollRun (n : Nat) (s : State) : Option (List (Byte × Byte)) :=
  match n with
  | 0 => some []
  | k + 1 =>
    match iterExec .ksPoll (pollSteps s.ks.geom) s with
    | .next t =>
      match (responses t.trace).getLast?, pollRun k t with
      | some (.ok, out), some rest => some ((t.ks.cand, out) :: rest)
      | _, _ => none
    | _ => none

/-- MAIN's micro-steps from here to the response of the command in the latch, this one among them (R115, R157, R216). -/
def State.microStepsLeft (s : State) : Nat :=
  match s.latch with
  | none => 0
  | some f =>
    match decodeFrame .command f with
    | .ok .ksPoll =>
      if s.ks.configured then
        match s.ks.phase with
        | .idle => pollSteps s.ks.geom
        | .drive l => (s.ks.lines - l) * (s.ks.cols + 3) + 1
        | .settle l => (s.ks.lines - l) * (s.ks.cols + 3)
        | .sample l c => (s.ks.lines - l - 1) * (s.ks.cols + 3) + (s.ks.cols - c) + 2
        | .release l => (s.ks.lines - l - 1) * (s.ks.cols + 3) + 2
        | .decide => 1
      else 1
    | .ok (.mdUpdate vals pts) =>
      if s.md.maskedDue then 1
      else match s.md.uphase with
        | .idle =>
          match updateValidate s.md vals pts, s.params.cdcScheme with
          | .ok _, .swap => s.md.n + 2
          | .ok _, .mask => 2
          | .error _, _ => 1
        | .write i => s.md.n - i + 1
        | .commit => 1
    | _ => 1

end Sys2Proof.Machine
end

