-- ==== Sys2Proof/Certificates/Slice0/Obligations.lean ====
section
/-! DEFINITION. The statements about KDMX, each from the numbered rules of the spec its docstring names. -/

open Sys2Proof Sys2Proof.Machine

/-! ### Encoding -/

/-- R97, R82–R90: decoding the frame of a well-formed instruction, on the port the instruction arrives on, gives it back. -/
def Obligations.DecodeOfEncode : Prop :=
  ∀ i : Instr, i.wf = true → decode i.port (encode i) = .ok i

/-- R97, R83: bytes that decode are the encoding of what they decode to, which is well-formed and belongs to that port.
So no two byte strings on one port are the same instruction, and no byte is dropped. -/
def Obligations.EncodeOfDecode : Prop :=
  ∀ (port : Port) (bs : List Byte) (i : Instr), decode port bs = .ok i →
    i.wf = true ∧ i.port = port ∧ encode i = bs

/-- R82, R85–R90 and the frames of 95_test_vectors.md: words written out from the tables decode to what they stand for. -/
def Obligations.WrittenWordsDecode : Prop :=
  decode .command [0x01, 0x01, 0x03, 0x28, 0x00, 0x00, 0x28, 0x00, 0x04, 0x0C,
      1, 2, 3, 4, 5, 6, 7, 8, 9, 14, 0, 15] =
    .ok (.ksConfigure 1 3 ⟨0x0028, 0⟩ ⟨0x0028, 4⟩ [1, 2, 3, 4, 5, 6, 7, 8, 9, 14, 0, 15]) ∧
  decode .command [0x02] = .ok .ksPoll ∧
  decode .command [0x11, 0x02, 0x01] = .ok (.mdConfigure 2 1) ∧
  decode .command [0x12, 0x28, 0x01, 0x00, 0x2B, 0x02, 0x05, 0x01] = .ok (.mdSetPorts ⟨0x0128, 0⟩ ⟨0x022B, 5⟩ 1) ∧
  decode .command [0x13, 0x02, 0x02, 0x03, 0x07, 0x00, 0x01] = .ok (.mdUpdate [3, 7] [0, 1]) ∧
  decode .tick [0x14] = .ok .mdAdvance ∧
  decode .command [0x14] = .error .wrongPort

/-- R83, R94: every legal frame on the command port is a command, whatever its operands are. -/
def Obligations.LegalFramesDecode : Prop :=
  ∀ f : Frame, LegalFrame f → ∃ i, decodeFrame .command f = .ok i ∧ encodeFrame i = f

/-- R93: MAIN's step on a frame that is not legal answers `(IllegalCommand, 0x00)` and does nothing else. -/
def Obligations.IllegalFramesAnswerIllegalCommand : Prop :=
  ∀ (s : State) (f : Frame), s.turn = .main → s.popTurn.issue.latch = some f → ¬ LegalFrame f →
    step s = .next { s.popTurn.issue with
      latch := none
      trace := s.trace ++ [.response .illegalCommand 0x00] }

/-! ### Steps -/

/-- R80, R97, R72: at MAIN's turn, a step is `exec` of the instruction the latched frame decodes to, after the turn is taken
off the schedule and, where no command is in flight, the next frame MAIN issues is latched. The schedule is
the model's own, log entry 2. -/
def Obligations.StepRunsLatchedCommand : Prop :=
  (∀ (s : State) (f : Frame) (i : Instr), s.turn = .main → s.popTurn.issue.latch = some f →
    decodeFrame .command f = .ok i → step s = exec i s.popTurn.issue) ∧
  (∀ s : State, s.popTurn = { s with sched := s.sched.drop 1 }) ∧
  (∀ (s : State) (f : Frame), s.latch = some f → s.issue = s) ∧
  (∀ (s : State) (f : Frame) (rest : List Frame), s.latch = none → s.cmds = f :: rest →
    s.issue = { s with latch := some f, cmds := rest }) ∧
  (∀ s : State, s.latch = none → s.cmds = [] → s.issue = s) ∧
  (∀ s : State, s.turn = .main → s.latch = none → s.cmds = [] → step s = .next s.popTurn)

/-- R206, R208, R209: at TICK's turn with a pending, unmasked tick, a step clears the pending bit, enters TICK context, runs
MD_ADVANCE, and leaves TICK context. -/
def Obligations.StepTakesPendingTick : Prop :=
  ∀ s : State, s.turn = .tick → s.tickPending = true → s.masked = false →
    step s = andThen (exec .mdAdvance { s.popTurn with tickPending := false, inTick := true })
      fun t => .next { t with inTick := false }

/-- R207: while the tick is masked, TICK has no step and the pending bit is kept; nor has it one with no tick pending. -/
def Obligations.MaskedTickHasNoStep : Prop :=
  ∀ s : State, s.turn = .tick → (s.masked = true ∨ s.tickPending = false) → step s = .next s.popTurn

/-- R205: a strobe sets tick.pending and nothing else; a second one before the tick is taken leaves it at 1; and the one
MD_ADVANCE that takes them leaves no tick pending. -/
def Obligations.StrobesCoalesce : Prop :=
  (∀ s : State, s.turn = .strobe → step s = .next { s.popTurn with tickPending := true }) ∧
  (∀ s : State, strobe (strobe s) = strobe s) ∧
  (∀ s t : State, s.masked = false → tickStep (strobe (strobe s)) = .next t → t.tickPending = false)

/-- R230, R40: a reset puts every register into its reset value, abandons the command in flight with no response and discards
a pending tick. Whether the pins are kept or put back to GPIO_INIT is the platform's, and both are modelled (log entry 8). -/
def Obligations.ResetTurnResetsRegisters : Prop :=
  ∀ (s : State) (pinsKept : Bool), s.turn = .reset pinsKept → ∃ t, step s = .next t ∧
    t.ks = State.reset.ks ∧ t.md = State.reset.md ∧
    t.tickPending = false ∧ t.masked = false ∧ t.inTick = false ∧ t.latch = none ∧ t.trace = s.trace ∧
    t.params = s.params ∧ t.cmds = s.cmds ∧ t.draws = s.draws ∧ t.drawn = s.drawn ∧
    (pinsKept = true → SamePins s t) ∧
    (pinsKept = false → ∀ base pin, t.pinDir base pin = Config.gpioInitDir base pin ∧
      t.pinOut base pin = Config.gpioInitOut base pin)

/-- R40: the reset value of every register. -/
def Obligations.ResetValues : Prop :=
  State.reset.ks.configured = false ∧ State.reset.ks.geom = .g4x4 ∧ State.reset.ks.lines = 4 ∧ State.reset.ks.cols = 4 ∧
  State.reset.ks.k = 0 ∧ State.reset.ks.lineGrp = ⟨0x0000, 0⟩ ∧ State.reset.ks.colGrp = ⟨0x0000, 0⟩ ∧
  (∀ i < 16, State.reset.keyMapRead i = some 0x00) ∧
  State.reset.ks.cand = 0xFF ∧ State.reset.ks.cnt = 0 ∧ State.reset.ks.phase = .idle ∧ State.reset.ks.hit = none ∧
  State.reset.md.configured = false ∧ State.reset.md.portsSet = false ∧ State.reset.md.n = 0 ∧ State.reset.md.pol = .cc ∧
  State.reset.md.dataGrp = ⟨0x0000, 0⟩ ∧ State.reset.md.ctrlGrp = ⟨0x0000, 0⟩ ∧ State.reset.md.act = .low ∧
  (∀ b, ∀ d < 8, (State.reset.bufRead b d).map Entry.ofByte = some ⟨0, false⟩) ∧
  State.reset.md.sel = false ∧ State.reset.md.idx = 0 ∧ State.reset.md.activeDigit = none ∧
  State.reset.md.uphase = .idle ∧
  State.reset.tickPending = false ∧ State.reset.masked = false ∧ State.reset.inTick = false ∧
  (∀ base pin, State.reset.pinDir base pin = Config.gpioInitDir base pin ∧
    State.reset.pinOut base pin = Config.gpioInitOut base pin)

/-- R231, R114, R152, R157, R163: before configuration KS_POLL answers `(NotConfigured, 0xFF)`, MD_SETPORTS and MD_UPDATE
answer `(NotConfigured, 0x00)`, each changing nothing else, and MD_ADVANCE does nothing. -/
def Obligations.UnconfiguredAnswers : Prop :=
  ∀ s : State, s.ks.configured = false → s.ks.phase = .idle → s.md.configured = false → s.md.uphase = .idle →
    s.md.maskedDue = false → s.inTick = false →
    AnswersError .ksPoll s .notConfigured 0xFF ∧
    (∀ data ctrl act, AnswersError (.mdSetPorts data ctrl act) s .notConfigured 0x00) ∧
    (∀ vals pts, AnswersError (.mdUpdate vals pts) s .notConfigured 0x00) ∧
    exec .mdAdvance (enterTick s) = .next (enterTick s)

/-! ### Operands -/

/-- R23: the geometry codes, and ks.L and ks.C as functions of ks.geom; and the other operand codes (R91) and the derived
levels (R11). -/
def Obligations.OperandCodes : Prop :=
  (∀ k : Ks, k.lines = k.geom.lines ∧ k.cols = k.geom.cols) ∧
  (∀ c : Byte, (geometryOf c).map (fun g => (g.lines, g.cols)) =
    if c.toNat = 0 then some (4, 4) else if c.toNat = 1 then some (4, 3) else if c.toNat = 2 then some (5, 3) else none) ∧
  (∀ c : Byte, polarityOf c = if c.toNat = 0 then some .cc else if c.toNat = 1 then some .ca else none) ∧
  (∀ c : Byte, activeLevelOf c = if c.toNat = 0 then some .low else if c.toNat = 1 then some .high else none) ∧
  (∀ p : Params, (inactiveKp p = .high ↔ p.kpActive = .low)) ∧
  blank .ca = .high ∧ blank .cc = .low

/-- R62: a group is usable for n pins exactly if its base is not 0 and is admitted, bits 7:3 of its first-pin byte are 0 and
the pins fit on the port. -/
def Obligations.UsableIffAdmittedAndFits : Prop :=
  ∀ (p : Params) (g : GroupOp) (n : Nat),
    usable p g n = true ↔
      g.base ≠ 0x0000 ∧ g.base ∈ p.validPorts ∧ g.first.toNat < 8 ∧ g.first.toNat + n ≤ 8

/-- R61, R63: two groups of at least one pin each overlap exactly if some pin of some port is in both. -/
def Obligations.OverlapIffSharedPin : Prop :=
  ∀ (g1 g2 : Group) (n1 n2 : Nat), 0 < n1 → 0 < n2 →
    (overlap g1 n1 g2 n2 = true ↔ ∃ base pin, g1.has n1 base pin = true ∧ g2.has n2 base pin = true)

/-- R166: the segment output byte. Bits 0..6 follow the segments and bit 7 the point, under common-anode every bit is
inverted, and the blank entry drives blank(pol) on every data pin. -/
def Obligations.SegmentOutput : Prop :=
  ∀ e : Entry,
    (∀ b < 7, (segOut e .cc).getLsbD b = e.seg.getLsbD b) ∧ (segOut e .cc).getLsbD 7 = e.dp ∧
    (∀ b < 8, (segOut e .ca).getLsbD b = !(segOut e .cc).getLsbD b) ∧
    (∀ pol, byteLevels (segOut ⟨0, false⟩ pol) = List.replicate 8 (blank pol))

/-! ### Pins and faults -/

/-- R64, R70: the three pin primitives, where the pin is not bound to the other unit. A write sets that output latch and no
other; a direction write sets the direction of every pin of the mask and of no other; a read takes whatever level ENV
answers, and changes no register and no pin. Each appends exactly its event, changes nothing else, and repeating a write
leaves the pins as they are. -/
def Obligations.PinPrimitives : Prop :=
  (∀ (u : Owner) (base : PortBase) (pin : Nat) (lv : Level) (s : State), s.conflict u base pin = false →
    ∃ t, gpioWrite u base pin lv s = .next t ∧
      t = { s with outs := t.outs, trace := s.trace ++ [.write base pin lv] } ∧
      (∀ b p, t.pinOut b p = if b = base ∧ p = pin then lv else s.pinOut b p) ∧
      ∃ r, gpioWrite u base pin lv t = .next r ∧ r.outs = t.outs) ∧
  (∀ (u : Owner) (base : PortBase) (mask dirs : Byte) (s : State),
    (∀ p < 8, mask.getLsbD p = true → s.conflict u base p = false) →
    ∃ t, gpioSetDir u base mask dirs s = .next t ∧
      t = { s with dirs := t.dirs, trace := s.trace ++ [.setDir base mask (dirs &&& mask)] } ∧
      (∀ b p, t.pinDir b p =
        if b = base ∧ p < 8 ∧ mask.getLsbD p = true then Level.ofBit (dirs.getLsbD p) else s.pinDir b p) ∧
      ∃ r, gpioSetDir u base mask dirs t = .next r ∧ ∀ b p, r.pinDir b p = t.pinDir b p) ∧
  (∀ (u : Owner) (base : PortBase) (pin : Nat) (lv : Level) (s : State), s.conflict u base pin = false →
    gpioRead u base pin { s with draws := lv :: s.draws } =
      .next { s with drawn := s.drawn + 1, trace := s.trace ++ [.read base pin lv] })

/-- From R75: which pins are bound to which unit, and that a pin event of one unit on a pin bound to the other is the fault
PinConflict: a poll that drives, samples or releases such a pin, and a refresh whose break touches one.
R75 does not spell out what bound means for each unit, nor the check at every pin of a direction mask: both are the model's
reading, log entry 17. That the acting unit need not be configured itself is the model's reading, log entry 4. -/
def Obligations.PinConflictFaults : Prop :=
  ∀ s : State,
    (∀ base pin, s.conflict .ks base pin = true ↔
      s.md.configured = true ∧ s.md.portsSet = true ∧
        (s.md.dataGrp.has 8 base pin = true ∨ s.md.ctrlGrp.has s.md.n base pin = true)) ∧
    (∀ base pin, s.conflict .md base pin = true ↔
      s.ks.configured = true ∧ (s.ks.lineGrp.has s.ks.lines base pin = true ∨ s.ks.colGrp.has s.ks.cols base pin = true)) ∧
    (∀ u base pin, s.conflict u base pin = true →
      gpioRead u base pin s = .fault .pinConflict ∧ (∀ lv, gpioWrite u base pin lv s = .fault .pinConflict) ∧
      (pin < 8 → ∀ mask dirs : Byte, mask.getLsbD pin = true → gpioSetDir u base mask dirs s = .fault .pinConflict)) ∧
    (∀ l, s.inTick = false → s.ks.phase = .drive l → s.mdBound s.ks.lineGrp.base (s.linePin l) = true →
      exec .ksPoll s = .fault .pinConflict) ∧
    (∀ l c, s.inTick = false → s.ks.phase = .sample l c → s.mdBound s.ks.colGrp.base (s.colPin c) = true →
      exec .ksPoll s = .fault .pinConflict) ∧
    (∀ l, s.inTick = false → s.ks.phase = .release l → s.mdBound s.ks.lineGrp.base (s.linePin l) = true →
      exec .ksPoll s = .fault .pinConflict) ∧
    (∀ a, s.inTick = true → s.md.configured = true → s.md.portsSet = true → s.md.activeDigit = some a →
      s.ksBound s.md.ctrlGrp.base (s.selectPin a) = true → exec .mdAdvance s = .fault .pinConflict)

/-- R75: KS_CONFIGURE on a pin bound to MD, and MD_SETPORTS on a pin bound to KS, stop with PinConflict at their pin
initialisation (that a first configuration counts as well is log entry 4, and what bound means log entry 17). -/
def Obligations.BindingASharedPinFaults : Prop :=
  (∀ (s : State) (geom k : Byte) (lines cols : GroupOp) (map : List Byte) (g : Geometry) (pin : Nat),
    s.inTick = false → ksValidate s.params geom k lines cols map = .ok g →
    ((boundGroup lines).has g.lines lines.base pin = true ∧ s.mdBound lines.base pin = true ∨
      (boundGroup cols).has g.cols cols.base pin = true ∧ s.mdBound cols.base pin = true) →
    exec (.ksConfigure geom k lines cols map) s = .fault .pinConflict) ∧
  (∀ (s : State) (data ctrl : GroupOp) (act : Byte) (lv : Level) (pin : Nat),
    s.inTick = false → portsValidate s.params s.md data ctrl act = .ok lv →
    ((boundGroup data).has 8 data.base pin = true ∧ s.ksBound data.base pin = true ∨
      (boundGroup ctrl).has s.md.n ctrl.base pin = true ∧ s.ksBound ctrl.base pin = true) →
    exec (.mdSetPorts data ctrl act) s = .fault .pinConflict)

/-- R66: the RAM accesses. A write is read back whole and changes no other entry of either buffer or of the key map; an index
past the end is a fault in every command that meets one, never a value. Only KS_CONFIGURE writes the key map, and only
MD_CONFIGURE and MD_UPDATE the digit buffer. -/
def Obligations.RamAccess : Prop :=
  (∀ (s : State) (i : Nat) (v : Byte), i < 16 → ∃ t, keyMapWrite i v s = .next t ∧
    t = { s with ks := { s.ks with keyMap := t.ks.keyMap } } ∧
    t.keyMapRead i = some v ∧ ∀ j, j ≠ i → t.keyMapRead j = s.keyMapRead j) ∧
  (∀ (s : State) (b : Bool) (d : Nat) (v : Byte), d < 8 → ∃ t, bufWrite b d v s = .next t ∧
    t = { s with md := { s.md with buf := t.md.buf } } ∧
    t.bufRead b d = some v ∧ ∀ b' d', (b' ≠ b ∨ d' ≠ d) → t.bufRead b' d' = s.bufRead b' d') ∧
  (∀ (s : State) (i : Nat) (v : Byte), 16 ≤ i → s.keyMapRead i = none ∧ keyMapWrite i v s = .fault .ramIndex) ∧
  (∀ (s : State) (b : Bool) (d : Nat) (v : Byte), 8 ≤ d → s.bufRead b d = none ∧ bufWrite b d v s = .fault .ramIndex) ∧
  (∀ (s : State) (i : Nat), s.inTick = false → s.ks.phase = .decide → s.ks.hit = some i → 16 ≤ i →
    exec .ksPoll s = .fault .ramIndex) ∧
  (∀ (s : State) (i : Nat) (vals pts : List Byte), s.inTick = false → s.md.maskedDue = false → s.md.uphase = .write i →
    8 ≤ i → exec (.mdUpdate vals pts) s = .fault .ramIndex) ∧
  (∀ s : State, s.inTick = true → s.md.configured = true → s.md.portsSet = true → s.md.activeDigit = none →
    8 ≤ s.md.idx → exec .mdAdvance s = .fault .ramIndex) ∧
  (∀ (i : Instr) (s t : State), exec i s = .next t →
    (t.ks.keyMap = s.ks.keyMap ∨ ∃ geom k lines cols map, i = .ksConfigure geom k lines cols map) ∧
    (t.md.buf = s.md.buf ∨ (∃ ndig pol, i = .mdConfigure ndig pol) ∨ ∃ vals pts, i = .mdUpdate vals pts))

/-! ### KS_CONFIGURE and KS_POLL -/

/-- R110, R112, R113: a KS_CONFIGURE whose checks pass, on pins not bound to MD, stores the configuration, restarts the
debounce, loads the key map, initialises the pins with R112's events in order, and answers `(Ok, 0x00)`.
Every other key-map entry, every other pin and everything of MD is unchanged. -/
def Obligations.KsConfigureSucceeds : Prop :=
  ∀ (s : State) (geom k : Byte) (lines cols : GroupOp) (map : List Byte) (g : Geometry),
    s.inTick = false → geometryOf geom = some g → map.length = g.lines * g.cols → k ≠ 0 →
    usable s.params lines g.lines = true → usable s.params cols g.cols = true →
    overlap (boundGroup lines) g.lines (boundGroup cols) g.cols = false →
    (∀ i < g.lines, s.mdBound lines.base ((boundGroup lines).first.toNat + i) = false) →
    (∀ j < g.cols, s.mdBound cols.base ((boundGroup cols).first.toNat + j) = false) →
    ∃ t, exec (.ksConfigure geom k lines cols map) s = .next t ∧
      t.ks.configured = true ∧ t.ks.geom = g ∧ t.ks.k = k.toNat ∧
      t.ks.lineGrp = ⟨lines.base, lines.first.extractLsb' 0 3⟩ ∧ t.ks.colGrp = ⟨cols.base, cols.first.extractLsb' 0 3⟩ ∧
      t.ks.cand = 0xFF ∧ t.ks.cnt = 0 ∧ t.ks.phase = .idle ∧ t.ks.hit = none ∧
      (∀ i < map.length, t.keyMapRead i = map[i]?) ∧
      (∀ i, map.length ≤ i → t.keyMapRead i = s.keyMapRead i) ∧
      t.trace = s.trace ++ ksPinInitEvents (boundGroup lines) (boundGroup cols) g.lines g.cols (inactiveKp s.params) ++
        [.response .ok 0x00] ∧
      (∀ i < g.lines, t.pinOut lines.base (t.linePin i) = inactiveKp s.params ∧ t.pinDir lines.base (t.linePin i) = .high) ∧
      (∀ j < g.cols, t.pinOut cols.base (t.colPin j) = inactiveKp s.params ∧ t.pinDir cols.base (t.colPin j) = .low) ∧
      (∀ base pin, t.ks.lineGrp.has g.lines base pin = false → t.ks.colGrp.has g.cols base pin = false →
        t.pinOut base pin = s.pinOut base pin ∧ t.pinDir base pin = s.pinDir base pin) ∧
      t.md = s.md ∧ t.latch = none ∧ SameOutside s t

/-- R111, R110, R202: KS_CONFIGURE's checks in order. The first that fails decides the result, and nothing changes. -/
def Obligations.KsConfigureErrors : Prop :=
  ∀ (s : State) (geom k : Byte) (lines cols : GroupOp) (map : List Byte), s.inTick = false →
    (2 < geom.toNat → AnswersError (.ksConfigure geom k lines cols map) s .invalidGeometry 0x00) ∧
    (∀ g, geometryOf geom = some g →
      (map.length ≠ g.lines * g.cols → AnswersError (.ksConfigure geom k lines cols map) s .invalidGeometry 0x00) ∧
      (map.length = g.lines * g.cols → k = 0 →
        AnswersError (.ksConfigure geom k lines cols map) s .invalidArgument 0x00) ∧
      (map.length = g.lines * g.cols → k ≠ 0 →
        (usable s.params lines g.lines = false ∨ usable s.params cols g.cols = false ∨
          overlap (boundGroup lines) g.lines (boundGroup cols) g.cols = true) →
        AnswersError (.ksConfigure geom k lines cols map) s .portsNotSet 0x00))

/-- R114: POLL_ENTRY. An unconfigured poll answers `(NotConfigured, 0xFF)` and changes nothing; a configured one clears ks.hit
and goes to DRIVE(0), changing nothing else. -/
def Obligations.PollEntry : Prop :=
  ∀ s : State, s.inTick = false → s.ks.phase = .idle →
    (s.ks.configured = false → AnswersError .ksPoll s .notConfigured 0xFF) ∧
    (s.ks.configured = true → exec .ksPoll s = .next { s with ks := { s.ks with hit := none, phase := .drive 0 } })

/-- R116: DRIVE(l) asserts line l and changes no other pin and no register but ks.phase; under the invariant exactly line l is
active after it. -/
def Obligations.PollDrivesLine : Prop :=
  (∀ (s t : State) (l : Nat), s.Inv → s.ks.phase = .drive l → exec .ksPoll s = .next t →
    ∀ i < s.ks.lines, t.pinOut s.ks.lineGrp.base (s.linePin i) = if i = l then s.params.kpActive else inactiveKp s.params) ∧
  ∀ (s : State) (l : Nat), s.inTick = false → s.ks.phase = .drive l →
    s.mdBound s.ks.lineGrp.base (s.linePin l) = false →
    ∃ t, exec .ksPoll s = .next t ∧
      t = { s with
        ks := { s.ks with phase := .settle l }
        outs := t.outs
        trace := s.trace ++ [.write s.ks.lineGrp.base (s.linePin l) s.params.kpActive] } ∧
      ∀ b p, t.pinOut b p = if b = s.ks.lineGrp.base ∧ p = s.linePin l then s.params.kpActive else s.pinOut b p

/-- R117: SETTLE(l) changes the phase and nothing else, and emits no pin event. -/
def Obligations.PollSettles : Prop :=
  ∀ (s : State) (l : Nat), s.inTick = false → s.ks.phase = .settle l →
    exec .ksPoll s = .next { s with ks := { s.ks with phase := .sample l 0 } }

/-- R118, R64, R70: SAMPLE(l, c) reads column c once, whatever level ENV answers, remembers l × C + c if the column is active
and nothing was remembered, and goes on to the next column or to RELEASE(l). No pin and nothing else changes. -/
def Obligations.PollSamplesColumn : Prop :=
  ∀ (s : State) (l c : Nat) (lv : Level), s.inTick = false → s.ks.phase = .sample l c →
    s.mdBound s.ks.colGrp.base (s.colPin c) = false → s.drawAt 0 s.ks.colGrp.base (s.colPin c) = lv →
    exec .ksPoll s = .next { s with
      draws := s.draws.drop 1
      drawn := s.drawn + 1
      trace := s.trace ++ [.read s.ks.colGrp.base (s.colPin c) lv]
      ks := { s.ks with
        hit := if lv = s.params.kpActive ∧ s.ks.hit = none then some (l * s.ks.cols + c) else s.ks.hit
        phase := if c + 1 < s.ks.cols then .sample l (c + 1) else .release l } }

/-- R119: RELEASE(l) deasserts line l, changes no other pin, and goes on to the next line or to DECIDE; under the invariant
every line is inactive after it. -/
def Obligations.PollReleasesLine : Prop :=
  (∀ (s t : State) (l : Nat), s.Inv → s.ks.phase = .release l → exec .ksPoll s = .next t →
    ∀ i < s.ks.lines, t.pinOut s.ks.lineGrp.base (s.linePin i) = inactiveKp s.params) ∧
  ∀ (s : State) (l : Nat), s.inTick = false → s.ks.phase = .release l →
    s.mdBound s.ks.lineGrp.base (s.linePin l) = false →
    ∃ t, exec .ksPoll s = .next t ∧
      t = { s with
        ks := { s.ks with phase := if l + 1 < s.ks.lines then .drive (l + 1) else .decide }
        outs := t.outs
        trace := s.trace ++ [.write s.ks.lineGrp.base (s.linePin l) (inactiveKp s.params)] } ∧
      ∀ b p, t.pinOut b p = if b = s.ks.lineGrp.base ∧ p = s.linePin l then inactiveKp s.params else s.pinOut b p

/-- R120, R121, R122, R123: DECIDE. The candidate is the mapped key or 0xFF, the counter counts consecutive matches up to ks.K,
the report condition is REPORT_MODE's, and the command ends `(Ok, out)`. Nothing else changes. -/
def Obligations.PollDecides : Prop :=
  ∀ (s : State) (new : Byte) (cnt : Nat) (out : Byte), s.inTick = false → s.ks.phase = .decide →
    (s.ks.hit = none ∧ new = 0xFF ∨ ∃ i < 16, s.ks.hit = some i ∧ s.keyMapRead i = some new) →
    cnt = (if new = s.ks.cand then (if s.ks.cnt < s.ks.k then s.ks.cnt + 1 else s.ks.cnt) else 1) →
    (s.params.reportMode = .edge →
      out = if new ≠ 0xFF ∧ (new = s.ks.cand → s.ks.cnt < s.ks.k) ∧ cnt = s.ks.k then new else 0xFF) →
    (s.params.reportMode = .held → out = if new ≠ 0xFF ∧ cnt = s.ks.k then new else 0xFF) →
    exec .ksPoll s = .next { s with
      ks := { s.ks with cand := new, cnt := cnt, phase := .idle }
      latch := none
      trace := s.trace ++ [.response .ok out] }

/-- R115, R126, R125, R119, R216: a whole configured KS_POLL. It takes 1 + L × (C + 3) + 1 micro-steps, emits exactly R126's
L × (C + 2) events and then one response, decodes the first active pair in scan order, leaves every line inactive and every
other pin as it was, and answers nothing before its last micro-step. -/
def Obligations.PollRunsFullScan : Prop :=
  ∀ s : State, s.Inv → s.ks.configured = true → s.ks.phase = .idle → s.latch = some (encodeFrame .ksPoll) →
    (∀ m < pollSteps s.ks.geom, ∃ u, iterExec .ksPoll m s = .next u ∧ u.latch = s.latch ∧
      responses u.trace = responses s.trace) ∧
    (pollEvents s).length = s.ks.lines * (s.ks.cols + 2) ∧
    ∃ t, iterExec .ksPoll (pollSteps s.ks.geom) s = .next t ∧
      t.trace = s.trace ++ pollEvents s ++
        [.response .ok (debounce s.params.reportMode s.ks.k s.ks.cand s.ks.cnt (pollCandidate s)).out] ∧
      t.ks = { s.ks with
        hit := firstActive s
        cand := pollCandidate s
        cnt := (debounce s.params.reportMode s.ks.k s.ks.cand s.ks.cnt (pollCandidate s)).cnt } ∧
      SamePins s t ∧ t.dirs = s.dirs ∧ t.md = s.md ∧ t.latch = none ∧
      t.draws = s.draws.drop (s.ks.lines * s.ks.cols) ∧ t.drawn = s.drawn + s.ks.lines * s.ks.cols ∧
      t.params = s.params ∧ t.tickPending = s.tickPending ∧ t.masked = s.masked ∧ t.inTick = s.inTick ∧
      t.cmds = s.cmds ∧ t.sched = s.sched

/-- R127: if every read of a configured poll returns INACTIVE_KP, the poll leaves ks.hit none and ks.cand 0xFF and answers
`(Ok, 0xFF)`, whatever ks.cand and ks.cnt were. -/
def Obligations.IdleMatrixAnswersNoKey : Prop :=
  ∀ s : State, s.Inv → s.ks.configured = true → s.ks.phase = .idle →
    (∀ l < s.ks.lines, ∀ c < s.ks.cols, s.readLevel l c = inactiveKp s.params) →
    ∃ t, iterExec .ksPoll (pollSteps s.ks.geom) s = .next t ∧ t.ks.hit = none ∧ t.ks.cand = 0xFF ∧
      responses t.trace = responses s.trace ++ [(.ok, 0xFF)]

/-- R128: the debounce law, over the n-th of m configured polls since the last KS_CONFIGURE (numbered from 0). Under EDGE a
poll answers key code k ≠ 0xFF exactly if it and the K − 1 before it decoded k, and either it is the K-th poll or the poll
before those decoded something else; under HELD, exactly if the last K polls decoded k. -/
def Obligations.DebounceLaw : Prop :=
  ∀ (s : State) (m : Nat), s.Inv → s.ks.configured = true → s.ks.phase = .idle → s.ks.cand = 0xFF → s.ks.cnt = 0 →
    ∃ ps, pollRun m s = some ps ∧ ps.length = m ∧
      ∀ n < m, ∀ key : Byte, key ≠ 0xFF →
        let run := s.ks.k ≤ n + 1 ∧ ∀ j < s.ks.k, (ps[n - j]?).map Prod.fst = some key
        (s.params.reportMode = .edge →
          ((ps[n]?).map Prod.snd = some key ↔
            run ∧ (n + 1 = s.ks.k ∨ (ps[n - s.ks.k]?).map Prod.fst ≠ some key))) ∧
        (s.params.reportMode = .held → ((ps[n]?).map Prod.snd = some key ↔ run))

/-- R124, R208, R72: noninterference. Take any interleaving of MAIN's micro-steps, strobes and ticks: every KS register, the
command latch, every response and every MD register but the round-robin's two are what MAIN's micro-steps alone give. -/
def Obligations.TicksDoNotDisturbMain : Prop :=
  ∀ (s t : State) (ts : List Turn), s.Inv → (∀ x ∈ ts, x.running = true) → runTurns ts s = .next t →
    ∃ u, runTurns (mainOnly ts) s = .next u ∧
      t.ks = u.ks ∧ t.latch = u.latch ∧ t.cmds = u.cmds ∧ t.draws = u.draws ∧ t.drawn = u.drawn ∧
      responses t.trace = responses u.trace ∧
      t.md = { u.md with idx := t.md.idx, activeDigit := t.md.activeDigit }

/-! ### MD_CONFIGURE and MD_SETPORTS -/

/-- From R150 and R151: a successful MD_CONFIGURE deselects the lit digit of a bound display, unbinds the ports, stores the
count and the polarity, clears both buffers, restarts the round-robin and answers `(Ok, 0x00)`. No other pin and nothing of KS
changes. That it also clears md.maskedDue, the model's own field, is the model's choice, log entry 6. -/
def Obligations.MdConfigureSucceeds : Prop :=
  ∀ (s : State) (ndig pol : Byte) (q : Polarity), s.inTick = false → 2 ≤ ndig.toNat → ndig.toNat ≤ 8 →
    polarityOf pol = some q →
    (∀ a, s.md.portsSet = true → s.md.activeDigit = some a → s.ksBound s.md.ctrlGrp.base (s.selectPin a) = false) →
    ∃ t, exec (.mdConfigure ndig pol) s = .next t ∧
      t.md.configured = true ∧ t.md.portsSet = false ∧ t.md.n = ndig.toNat ∧ t.md.pol = q ∧
      (∀ b, ∀ d < 8, (t.bufRead b d).map Entry.ofByte = some ⟨0, false⟩) ∧
      t.md.sel = false ∧ t.md.idx = 0 ∧ t.md.activeDigit = none ∧ t.md.uphase = .idle ∧ t.md.maskedDue = false ∧
      t.md.dataGrp = s.md.dataGrp ∧ t.md.ctrlGrp = s.md.ctrlGrp ∧ t.md.act = s.md.act ∧
      t.trace = s.trace ++ (if s.md.portsSet then deselectEvents s.md else []) ++ [.response .ok 0x00] ∧
      (∀ b p, t.pinOut b p =
        if s.md.portsSet then replayPin (deselectEvents s.md) b p (s.pinOut b p) else s.pinOut b p) ∧
      t.dirs = s.dirs ∧ t.ks = s.ks ∧ t.latch = none ∧ SameOutside s t

/-- R150, R203, R202: MD_CONFIGURE's checks in order; the first that fails decides the result, and nothing changes. -/
def Obligations.MdConfigureErrors : Prop :=
  ∀ (s : State) (ndig pol : Byte), s.inTick = false →
    ((ndig.toNat < 2 ∨ 8 < ndig.toNat) → AnswersError (.mdConfigure ndig pol) s .invalidGeometry 0x00) ∧
    (2 ≤ ndig.toNat → ndig.toNat ≤ 8 → 1 < pol.toNat → AnswersError (.mdConfigure ndig pol) s .invalidArgument 0x00)

/-- R153, R155, R156: a successful MD_SETPORTS deselects the lit digit of the old binding, binds the groups and the active
level, leaves every select line inactive and every data pin blank as outputs, and answers `(Ok, 0x00)`. The round-robin, the
buffers, every other pin and everything of KS are unchanged. -/
def Obligations.MdSetPortsSucceeds : Prop :=
  ∀ (s : State) (data ctrl : GroupOp) (act : Byte) (lv : Level), s.inTick = false → s.md.configured = true →
    activeLevelOf act = some lv → usable s.params data 8 = true → usable s.params ctrl s.md.n = true →
    overlap (boundGroup data) 8 (boundGroup ctrl) s.md.n = false →
    (∀ a, s.md.portsSet = true → s.md.activeDigit = some a → s.ksBound s.md.ctrlGrp.base (s.selectPin a) = false) →
    (∀ b < 8, s.ksBound data.base ((boundGroup data).first.toNat + b) = false) →
    (∀ d < s.md.n, s.ksBound ctrl.base ((boundGroup ctrl).first.toNat + d) = false) →
    ∃ t, exec (.mdSetPorts data ctrl act) s = .next t ∧
      t.md = { s.md with
        activeDigit := none
        dataGrp := ⟨data.base, data.first.extractLsb' 0 3⟩
        ctrlGrp := ⟨ctrl.base, ctrl.first.extractLsb' 0 3⟩
        act := lv
        portsSet := true } ∧
      t.trace = s.trace ++ (if s.md.portsSet then deselectEvents s.md else []) ++
        portsInitEvents (boundGroup data) (boundGroup ctrl) s.md.n lv s.md.pol ++ [.response .ok 0x00] ∧
      (portsInitEvents (boundGroup data) (boundGroup ctrl) s.md.n lv s.md.pol).length = s.md.n + 10 ∧
      (∀ d < s.md.n, t.pinOut ctrl.base (t.selectPin d) = lv.inv ∧ t.pinDir ctrl.base (t.selectPin d) = .high) ∧
      (∀ b < 8, t.pinOut data.base (t.dataPin b) = blank s.md.pol ∧ t.pinDir data.base (t.dataPin b) = .high) ∧
      (∀ base pin, t.md.dataGrp.has 8 base pin = false → t.md.ctrlGrp.has s.md.n base pin = false →
        t.pinDir base pin = s.pinDir base pin ∧
        t.pinOut base pin =
          if s.md.portsSet then replayPin (deselectEvents s.md) base pin (s.pinOut base pin) else s.pinOut base pin) ∧
      t.ks = s.ks ∧ t.latch = none ∧ SameOutside s t

/-- R152, R153, R154, R202: MD_SETPORTS's checks in order; the first that fails decides the result, and nothing changes. -/
def Obligations.MdSetPortsErrors : Prop :=
  ∀ (s : State) (data ctrl : GroupOp) (act : Byte), s.inTick = false →
    (s.md.configured = false → AnswersError (.mdSetPorts data ctrl act) s .notConfigured 0x00) ∧
    (s.md.configured = true → 1 < act.toNat → AnswersError (.mdSetPorts data ctrl act) s .invalidArgument 0x00) ∧
    (s.md.configured = true → act.toNat ≤ 1 →
      (usable s.params data 8 = false ∨ usable s.params ctrl s.md.n = false ∨
        overlap (boundGroup data) 8 (boundGroup ctrl) s.md.n = true) →
      AnswersError (.mdSetPorts data ctrl act) s .portsNotSet 0x00)

/-! ### MD_UPDATE -/

/-- R157, R203: UPD_ENTRY. An error changes nothing; a legal update goes to WRITE(0) under SWAP and to UPD_MASKED under MASK,
changing nothing else (where a MASK update waits is the model's own field, log entry 6). -/
def Obligations.UpdateEntry : Prop :=
  ∀ (s : State) (vals pts : List Byte), s.inTick = false → s.md.uphase = .idle → s.md.maskedDue = false →
    (s.md.configured = false → AnswersError (.mdUpdate vals pts) s .notConfigured 0x00) ∧
    (s.md.configured = true → (vals.length ≠ s.md.n ∨ pts.length ≠ s.md.n) →
      AnswersError (.mdUpdate vals pts) s .invalidArgument 0x00) ∧
    (s.md.configured = true → vals.length = s.md.n → pts.length = s.md.n → s.params.cdcScheme = .swap →
      exec (.mdUpdate vals pts) s = .next { s with md := { s.md with uphase := .write 0 } }) ∧
    (s.md.configured = true → vals.length = s.md.n → pts.length = s.md.n → s.params.cdcScheme = .mask →
      exec (.mdUpdate vals pts) s = .next { s with md := { s.md with maskedDue := true } })

/-- R160, R158: WRITE(i) writes E(i), with its segments from SEG_TABLE and its point true for any nonzero byte, to entry i of
the shadow buffer, changes no other entry of either buffer, and goes on. No pin event, and nothing else changes. -/
def Obligations.UpdateWritesShadowEntry : Prop :=
  ∀ (s : State) (vals pts : List Byte) (i : Nat) (v p : Byte), s.inTick = false → s.md.maskedDue = false →
    s.md.uphase = .write i → i < 8 → vals[i]? = some v → pts[i]? = some p →
    ∃ t, exec (.mdUpdate vals pts) s = .next t ∧
      t = { s with
        md := { s.md with
          buf := t.md.buf
          uphase := if i + 1 < s.md.n then .write (i + 1) else .commit } } ∧
      (t.shadowEntry i).map Entry.ofByte = some ⟨s.params.segTable.getD v.toNat 0, p ≠ 0⟩ ∧
      (∀ d, d ≠ i → t.shadowEntry d = s.shadowEntry d) ∧
      (∀ d, t.activeEntry d = s.activeEntry d)

/-- R161: COMMIT swaps the buffers in one step, ends the update and answers `(Ok, 0x00)`; it writes no entry. -/
def Obligations.UpdateCommits : Prop :=
  ∀ (s : State) (vals pts : List Byte), s.inTick = false → s.md.maskedDue = false → s.md.uphase = .commit →
    ∃ t, exec (.mdUpdate vals pts) s = .next t ∧
      t = { s with
        md := { s.md with sel := !s.md.sel, uphase := .idle }
        latch := none
        trace := s.trace ++ [.response .ok 0x00] } ∧
      (∀ d, t.activeEntry d = s.shadowEntry d) ∧ (∀ d, t.shadowEntry d = s.activeEntry d)

/-- R162, R158, R207: UPD_MASKED copies every entry to the active buffer in one step, leaves the tick unmasked and a pending
tick pending, and answers `(Ok, 0x00)`; the other buffer, the other entries and everything else are unchanged (where the update
waits is the model's own field, log entry 6). -/
def Obligations.UpdateCopiesUnderMask : Prop :=
  ∀ (s : State) (vals pts : List Byte), s.inTick = false → s.md.maskedDue = true →
    vals.length = s.md.n → pts.length = s.md.n → s.md.n ≤ 8 →
    ∃ t, exec (.mdUpdate vals pts) s = .next t ∧
      t = { s with
        md := { s.md with buf := t.md.buf, maskedDue := false }
        masked := false
        latch := none
        trace := s.trace ++ [.response .ok 0x00] } ∧
      (∀ d < s.md.n, t.activeEntry d = some (updateByte s.params vals pts d)) ∧
      (∀ d, s.md.n ≤ d → t.activeEntry d = s.activeEntry d) ∧
      (∀ d, t.shadowEntry d = s.shadowEntry d)

/-- R168, R159, R69: a whole MD_UPDATE under either scheme, with strobes and ticks anywhere between its micro-steps. Until its
last micro-step the active buffer, the one every refresh reads, holds what it held before, and no response is given; after it,
entry d is E(d) for every digit d, and the response is `(Ok, 0x00)`. -/
def Obligations.UpdateIsAtomic : Prop :=
  ∀ (s t : State) (vals pts : List Byte) (ts : List Turn), s.Inv →
    s.latch = some (encodeFrame (.mdUpdate vals pts)) → s.md.configured = true → s.updating = false →
    vals.length = s.md.n → pts.length = s.md.n → (∀ x ∈ ts, x.running = true) → runTurns ts s = .next t →
    let whole := match s.params.cdcScheme with
      | .swap => s.md.n + 2
      | .mask => 2
    ((mainOnly ts).length < whole →
      (∀ d, t.activeEntry d = s.activeEntry d) ∧ responses t.trace = responses s.trace) ∧
    ((mainOnly ts).length = whole →
      (∀ d < s.md.n, t.activeEntry d = some (updateByte s.params vals pts d)) ∧
      responses t.trace = responses s.trace ++ [(.ok, 0x00)])

/-! ### MD_ADVANCE -/

/-- R204, R163: MD_ADVANCE with the unit unconfigured or its ports not set is a safe no-op, and in no case does it give a
response. -/
def Obligations.AdvanceNeverReports : Prop :=
  (∀ s : State, s.inTick = true → (s.md.configured = false ∨ s.md.portsSet = false) → exec .mdAdvance s = .next s) ∧
  (∀ s t : State, exec .mdAdvance s = .next t → responses t.trace = responses s.trace)

/-- R164, R165, R166: MD_REFRESH. The deselect, the eight data pins from bit 0 up, and the select of digit md.idx are its
events, in that order; the data pins show SEGOUT of the active entry, the lit digit's select line is at md.act and the one
before it is not; md.activeDigit and md.idx move on. Every other pin and everything else is unchanged. -/
def Obligations.AdvanceRefreshesDigit : Prop :=
  ∀ (s : State) (e : Entry), s.inTick = true → s.md.configured = true → s.md.portsSet = true →
    s.md.idx < s.md.n → (s.activeEntry s.md.idx).map Entry.ofByte = some e →
    overlap s.md.dataGrp 8 s.md.ctrlGrp s.md.n = false → (∀ a, s.md.activeDigit = some a → a < s.md.n) →
    (∀ b < 8, s.ksBound s.md.dataGrp.base (s.dataPin b) = false) →
    (∀ d < s.md.n, s.ksBound s.md.ctrlGrp.base (s.selectPin d) = false) →
    ∃ t, exec .mdAdvance s = .next t ∧
      t = { s with
        md := { s.md with activeDigit := some s.md.idx, idx := (s.md.idx + 1) % s.md.n }
        outs := t.outs
        trace := s.trace ++ refreshEvents s.md e s.md.idx } ∧
      (∀ b < 8, t.pinOut s.md.dataGrp.base (s.dataPin b) = Level.ofBit ((segOut e s.md.pol).getLsbD b)) ∧
      t.pinOut s.md.ctrlGrp.base (s.selectPin s.md.idx) = s.md.act ∧
      (∀ a, s.md.activeDigit = some a → a ≠ s.md.idx → t.pinOut s.md.ctrlGrp.base (s.selectPin a) = s.md.act.inv) ∧
      (∀ base pin, s.md.dataGrp.has 8 base pin = false →
        (∀ a, (s.md.activeDigit = some a ∨ a = s.md.idx) → ¬ (base = s.md.ctrlGrp.base ∧ pin = s.selectPin a)) →
        t.pinOut base pin = s.pinOut base pin)

/-- R170, R163, R164: an MD_ADVANCE that answers a next state has emitted no event, nine or ten: nothing when unbound, nine
with no lit digit, ten with one. -/
def Obligations.AdvanceEventCount : Prop :=
  ∀ s t : State, exec .mdAdvance s = .next t →
    t.trace.length = s.trace.length +
      if s.md.configured && s.md.portsSet then (if s.md.activeDigit.isSome then 10 else 9) else 0

/-- R165, R169: k refreshes in a row from md.idx = i0 show positions i0, i0 + 1, … modulo md.N, each with the events of its
own entry, and N of them show every position exactly once. The buffer and the selection stay as they are. -/
def Obligations.RefreshesGoRound : Prop :=
  ∀ (s : State) (k : Nat), s.Inv → s.md.portsSet = true →
    (∃ t, iterExec .mdAdvance k (enterTick s) = .next t ∧
      t.md = { s.md with
        idx := (s.md.idx + k) % s.md.n
        activeDigit := if k = 0 then s.md.activeDigit else some ((s.md.idx + (k - 1)) % s.md.n) } ∧
      t.trace = s.trace ++ (List.range k).flatMap fun j =>
        refreshEvents
          { s.md with
            activeDigit := if j = 0 then s.md.activeDigit else some ((s.md.idx + (j - 1)) % s.md.n) }
          (Entry.ofByte ((s.activeEntry ((s.md.idx + j) % s.md.n)).getD 0)) ((s.md.idx + j) % s.md.n)) ∧
    (∀ d < s.md.n, ∃ j < s.md.n, (s.md.idx + j) % s.md.n = d ∧ ∀ j' < s.md.n, (s.md.idx + j') % s.md.n = d → j' = j)

/-- R167: break-before-make. At every point of an MD_ADVANCE's event sequence at most one select line is at md.act, and from
the break to the make none is. -/
def Obligations.BreakBeforeMake : Prop :=
  ∀ s : State, s.Inv → s.md.portsSet = true →
    ∃ t evs, exec .mdAdvance (enterTick s) = .next t ∧ t.trace = s.trace ++ evs ∧
      (∀ k, selectsActive s (evs.take k) ≤ 1) ∧
      (∀ k, (deselectEvents s.md).length ≤ k → k < evs.length → selectsActive s (evs.take k) = 0) ∧
      selectsActive s evs = 1

/-! ### Contexts, frames and invariants -/

/-- R213: MD_ADVANCE outside TICK context and every command inside it are refused. -/
def Obligations.ContextMisuseIsRefused : Prop :=
  ∀ s : State,
    (s.inTick = false → exec .mdAdvance s = .refused .contextMisuse) ∧
    (∀ i : Instr, s.inTick = true → i.port = .command → exec i s = .refused .contextMisuse)

/-- R208, R209: a tick that is taken changes no MAIN state: no KS register, no latch, no MD register but md.idx and
md.activeDigit, no pin direction, no mask; ctx.inTick is 0 again at its end, and the pending bit is clear. -/
def Obligations.TickChangesNoMainState : Prop :=
  ∀ s t : State, s.tickReady = true → runTurn .tick s = .next t →
    t = { s with
      md := { s.md with idx := t.md.idx, activeDigit := t.md.activeDigit }
      tickPending := false
      inTick := false
      outs := t.outs
      trace := t.trace }

/-- R39, R24, R31, R22, R29: what each command may write. KS commands leave MD alone and MD commands leave KS alone; KS_POLL
writes only the scan state; MD_CONFIGURE no binding; MD_SETPORTS only the binding; MD_UPDATE only the buffers and its own
position; MD_ADVANCE only the round-robin; and none writes the parameters, the schedule, the command stream or tick.pending. -/
def Obligations.CommandsWriteOnlyTheirRegisters : Prop :=
  ∀ (i : Instr) (s t : State), exec i s = .next t →
    (t.params = s.params ∧ t.sched = s.sched ∧ t.cmds = s.cmds ∧ t.tickPending = s.tickPending ∧ t.inTick = s.inTick) ∧
    match i with
    | .ksConfigure _ _ _ _ _ => t.md = s.md ∧ t.draws = s.draws ∧ t.masked = s.masked
    | .ksPoll => t.md = s.md ∧ t.dirs = s.dirs ∧ t.masked = s.masked ∧
        t.ks = { s.ks with cand := t.ks.cand, cnt := t.ks.cnt, phase := t.ks.phase, hit := t.ks.hit }
    | .mdConfigure _ _ => t.ks = s.ks ∧ t.draws = s.draws ∧ t.dirs = s.dirs ∧ t.masked = s.masked ∧
        t.md.dataGrp = s.md.dataGrp ∧ t.md.ctrlGrp = s.md.ctrlGrp ∧ t.md.act = s.md.act
    | .mdSetPorts _ _ _ => t.ks = s.ks ∧ t.draws = s.draws ∧ t.masked = s.masked ∧
        t.md = { s.md with portsSet := t.md.portsSet, dataGrp := t.md.dataGrp, ctrlGrp := t.md.ctrlGrp, act := t.md.act,
                           activeDigit := t.md.activeDigit }
    | .mdUpdate _ _ => t.ks = s.ks ∧ t.draws = s.draws ∧ t.dirs = s.dirs ∧ t.outs = s.outs ∧
        t.md = { s.md with buf := t.md.buf, sel := t.md.sel, uphase := t.md.uphase, maskedDue := t.md.maskedDue }
    | .mdAdvance => t.ks = s.ks ∧ t.draws = s.draws ∧ t.dirs = s.dirs ∧ t.masked = s.masked ∧ t.latch = s.latch ∧
        t.md = { s.md with idx := t.md.idx, activeDigit := t.md.activeDigit }

/-- R202: a command that ends with an error response changes no register, no RAM entry and no pin, and emits no pin event. -/
def Obligations.ErrorsChangeNothing : Prop :=
  ∀ (i : Instr) (s t : State) (res : Result) (data : Byte), exec i s = .next t →
    responses t.trace = responses s.trace ++ [(res, data)] → res ≠ .ok →
    t = { s with latch := none, trace := s.trace ++ [.response res data] }

/-- R28, R34, R35, R75: the reset state meets the invariant. -/
def Obligations.ResetMeetsInv : Prop := State.reset.Inv

/-- R28, R34, R35, R66, R75: every step from a state that meets the invariant gives a state that meets it. -/
def Obligations.StepKeepsInv : Prop :=
  ∀ s t : State, s.Inv → step s = .next t → t.Inv

/-- R66, R75, R216, R240: under the invariant a step is never refused and never meets a RAM index past the end; it stops only
with PinConflict, and only at MAIN's turn on a KS_CONFIGURE or an MD_SETPORTS. -/
def Obligations.OnlyBindingCommandsStop : Prop :=
  ∀ s : State, s.Inv →
    (∃ t, step s = .next t) ∨
    step s = .fault .pinConflict ∧ s.turn = .main ∧
      ∃ f i, s.popTurn.issue.latch = some f ∧ decodeFrame .command f = .ok i ∧
        ((∃ geom k lines cols map, i = .ksConfigure geom k lines cols map) ∨ ∃ data ctrl act, i = .mdSetPorts data ctrl act)

/-- R216, R80, R115, R157, R162: every command completes in a bounded number of micro-steps, unless a KS_CONFIGURE or an
MD_SETPORTS stops at a pin conflict. At most 32 micro-steps are left; each that answers brings the response one nearer, and the
last and only the last gives exactly one response; and the run of all that are left answers, with the latch free. -/
def Obligations.CommandsComplete : Prop :=
  (∀ (s t : State) (f : Frame), s.Inv → s.latch = some f → runTurn .main s = .next t →
    1 ≤ s.microStepsLeft ∧ s.microStepsLeft ≤ 32 ∧
    (s.microStepsLeft = 1 → t.latch = none ∧ ∃ r, responses t.trace = responses s.trace ++ [r]) ∧
    (1 < s.microStepsLeft → t.latch = some f ∧ t.microStepsLeft + 1 = s.microStepsLeft ∧
      responses t.trace = responses s.trace)) ∧
  (∀ (s : State) (f : Frame), s.Inv → s.latch = some f →
    (∃ t r, runTurns (List.replicate s.microStepsLeft .main) s = .next t ∧ t.latch = none ∧
      responses t.trace = responses s.trace ++ [r]) ∨
    runTurns (List.replicate s.microStepsLeft .main) s = .fault .pinConflict ∧
      ∃ i, decodeFrame .command f = .ok i ∧
        ((∃ geom k lines cols map, i = .ksConfigure geom k lines cols map) ∨ ∃ data ctrl act, i = .mdSetPorts data ctrl act))

/-- R206 as log entry 2 realises it: weak fairness. A pending tick is TICK's to take within as many steps as the schedule has
turns, if no reset is scheduled, unless a pin conflict stops the machine first. -/
def Obligations.PendingTickIsTaken : Prop :=
  ∀ s : State, s.Inv → s.tickPending = true → (∀ x ∈ s.sched, x.running = true) →
    ∃ k ≤ s.sched.length,
      (∃ u, Host.Core.run core k s = .next u ∧ u.turn = .tick ∧ u.tickReady = true) ∨
      Host.Core.run core k s = .fault .pinConflict

/-- R76, R64: under the invariant, the only pins a step reads are column pins of a configured KS, and they are inputs. -/
def Obligations.ReadsOnlyInputColumns : Prop :=
  ∀ (s t : State) (base : PortBase) (pin : Nat) (lv : Level), s.Inv → step s = .next t →
    .read base pin lv ∈ t.trace.drop s.trace.length →
    s.ks.configured = true ∧ base = s.ks.colGrp.base ∧ (∃ j < s.ks.cols, pin = s.colPin j) ∧ s.pinDir base pin = .low

/-- R64, R72: the trace is totally ordered and only grows: what a step emits comes after everything before it. -/
def Obligations.TraceOnlyGrows : Prop :=
  ∀ s t : State, step s = .next t → ∃ evs, t.trace = s.trace ++ evs
end

