-- ==== Sys2Proof/Laws/State.lean ====
section
/-! SUPPORT. One lemma per field of the state and per named update of it, each true by unfolding, so that no later proof
unfolds a record update. -/

namespace Sys2Proof.Machine

/-! ### emit -/

@[simp] theorem emit_params (e : Obs) (s : State) : (s.emit e).params = s.params := rfl
@[simp] theorem emit_ks (e : Obs) (s : State) : (s.emit e).ks = s.ks := rfl
@[simp] theorem emit_md (e : Obs) (s : State) : (s.emit e).md = s.md := rfl
@[simp] theorem emit_tickPending (e : Obs) (s : State) : (s.emit e).tickPending = s.tickPending := rfl
@[simp] theorem emit_masked (e : Obs) (s : State) : (s.emit e).masked = s.masked := rfl
@[simp] theorem emit_inTick (e : Obs) (s : State) : (s.emit e).inTick = s.inTick := rfl
@[simp] theorem emit_dirs (e : Obs) (s : State) : (s.emit e).dirs = s.dirs := rfl
@[simp] theorem emit_outs (e : Obs) (s : State) : (s.emit e).outs = s.outs := rfl
@[simp] theorem emit_latch (e : Obs) (s : State) : (s.emit e).latch = s.latch := rfl
@[simp] theorem emit_cmds (e : Obs) (s : State) : (s.emit e).cmds = s.cmds := rfl
@[simp] theorem emit_sched (e : Obs) (s : State) : (s.emit e).sched = s.sched := rfl
@[simp] theorem emit_draws (e : Obs) (s : State) : (s.emit e).draws = s.draws := rfl
@[simp] theorem emit_drawn (e : Obs) (s : State) : (s.emit e).drawn = s.drawn := rfl
@[simp] theorem emit_trace (e : Obs) (s : State) : (s.emit e).trace = s.trace ++ [e] := rfl

/-! ### respond -/

@[simp] theorem respond_params (res : Result) (data : Byte) (s : State) :
    (respond res data s).params =
      s.params := rfl
@[simp] theorem respond_ks (res : Result) (data : Byte) (s : State) : (respond res data s).ks = s.ks := rfl
@[simp] theorem respond_md (res : Result) (data : Byte) (s : State) : (respond res data s).md = s.md := rfl
@[simp] theorem respond_tickPending (res : Result) (data : Byte) (s : State) :
    (respond res data s).tickPending =
      s.tickPending := rfl
@[simp] theorem respond_masked (res : Result) (data : Byte) (s : State) :
    (respond res data s).masked =
      s.masked := rfl
@[simp] theorem respond_inTick (res : Result) (data : Byte) (s : State) :
    (respond res data s).inTick =
      s.inTick := rfl
@[simp] theorem respond_dirs (res : Result) (data : Byte) (s : State) : (respond res data s).dirs = s.dirs := rfl
@[simp] theorem respond_outs (res : Result) (data : Byte) (s : State) : (respond res data s).outs = s.outs := rfl
@[simp] theorem respond_latch (res : Result) (data : Byte) (s : State) : (respond res data s).latch = none := rfl
@[simp] theorem respond_cmds (res : Result) (data : Byte) (s : State) : (respond res data s).cmds = s.cmds := rfl
@[simp] theorem respond_sched (res : Result) (data : Byte) (s : State) : (respond res data s).sched = s.sched := rfl
@[simp] theorem respond_draws (res : Result) (data : Byte) (s : State) : (respond res data s).draws = s.draws := rfl
@[simp] theorem respond_drawn (res : Result) (data : Byte) (s : State) : (respond res data s).drawn = s.drawn := rfl
@[simp] theorem respond_trace (res : Result) (data : Byte) (s : State) :
    (respond res data s).trace =
      s.trace ++ [.response res data] := rfl

/-! ### setPhase -/

@[simp] theorem setPhase_params (p : Phase) (s : State) : (setPhase p s).params = s.params := rfl
@[simp] theorem setPhase_ks (p : Phase) (s : State) : (setPhase p s).ks = { s.ks with phase := p } := rfl
@[simp] theorem setPhase_md (p : Phase) (s : State) : (setPhase p s).md = s.md := rfl
@[simp] theorem setPhase_tickPending (p : Phase) (s : State) : (setPhase p s).tickPending = s.tickPending := rfl
@[simp] theorem setPhase_masked (p : Phase) (s : State) : (setPhase p s).masked = s.masked := rfl
@[simp] theorem setPhase_inTick (p : Phase) (s : State) : (setPhase p s).inTick = s.inTick := rfl
@[simp] theorem setPhase_dirs (p : Phase) (s : State) : (setPhase p s).dirs = s.dirs := rfl
@[simp] theorem setPhase_outs (p : Phase) (s : State) : (setPhase p s).outs = s.outs := rfl
@[simp] theorem setPhase_latch (p : Phase) (s : State) : (setPhase p s).latch = s.latch := rfl
@[simp] theorem setPhase_cmds (p : Phase) (s : State) : (setPhase p s).cmds = s.cmds := rfl
@[simp] theorem setPhase_sched (p : Phase) (s : State) : (setPhase p s).sched = s.sched := rfl
@[simp] theorem setPhase_draws (p : Phase) (s : State) : (setPhase p s).draws = s.draws := rfl
@[simp] theorem setPhase_drawn (p : Phase) (s : State) : (setPhase p s).drawn = s.drawn := rfl
@[simp] theorem setPhase_trace (p : Phase) (s : State) : (setPhase p s).trace = s.trace := rfl

/-! ### ksSetConfigured -/

@[simp] theorem ksSetConfigured_params (s : State) : (ksSetConfigured s).params = s.params := rfl
@[simp] theorem ksSetConfigured_ks (s : State) : (ksSetConfigured s).ks = { s.ks with configured := true } := rfl
@[simp] theorem ksSetConfigured_md (s : State) : (ksSetConfigured s).md = s.md := rfl
@[simp] theorem ksSetConfigured_tickPending (s : State) : (ksSetConfigured s).tickPending = s.tickPending := rfl
@[simp] theorem ksSetConfigured_masked (s : State) : (ksSetConfigured s).masked = s.masked := rfl
@[simp] theorem ksSetConfigured_inTick (s : State) : (ksSetConfigured s).inTick = s.inTick := rfl
@[simp] theorem ksSetConfigured_dirs (s : State) : (ksSetConfigured s).dirs = s.dirs := rfl
@[simp] theorem ksSetConfigured_outs (s : State) : (ksSetConfigured s).outs = s.outs := rfl
@[simp] theorem ksSetConfigured_latch (s : State) : (ksSetConfigured s).latch = s.latch := rfl
@[simp] theorem ksSetConfigured_cmds (s : State) : (ksSetConfigured s).cmds = s.cmds := rfl
@[simp] theorem ksSetConfigured_sched (s : State) : (ksSetConfigured s).sched = s.sched := rfl
@[simp] theorem ksSetConfigured_draws (s : State) : (ksSetConfigured s).draws = s.draws := rfl
@[simp] theorem ksSetConfigured_drawn (s : State) : (ksSetConfigured s).drawn = s.drawn := rfl
@[simp] theorem ksSetConfigured_trace (s : State) : (ksSetConfigured s).trace = s.trace := rfl

/-! ### ksCommitRegs -/

@[simp] theorem ksCommitRegs_params (g : Geometry) (k : Byte) (lines cols : GroupOp) (s : State) :
    (ksCommitRegs g k lines cols s).params =
      s.params := rfl
@[simp] theorem ksCommitRegs_ks (g : Geometry) (k : Byte) (lines cols : GroupOp) (s : State) :
    (ksCommitRegs g k lines cols s).ks =
      { s.ks with geom := g, k := k.toNat, lineGrp := boundGroup lines, colGrp := boundGroup cols, cand := noKey, cnt := 0, phase := .idle, hit := none } := rfl
@[simp] theorem ksCommitRegs_md (g : Geometry) (k : Byte) (lines cols : GroupOp) (s : State) :
    (ksCommitRegs g k lines cols s).md =
      s.md := rfl
@[simp] theorem ksCommitRegs_tickPending (g : Geometry) (k : Byte) (lines cols : GroupOp) (s : State) :
    (ksCommitRegs g k lines cols s).tickPending =
      s.tickPending := rfl
@[simp] theorem ksCommitRegs_masked (g : Geometry) (k : Byte) (lines cols : GroupOp) (s : State) :
    (ksCommitRegs g k lines cols s).masked =
      s.masked := rfl
@[simp] theorem ksCommitRegs_inTick (g : Geometry) (k : Byte) (lines cols : GroupOp) (s : State) :
    (ksCommitRegs g k lines cols s).inTick =
      s.inTick := rfl
@[simp] theorem ksCommitRegs_dirs (g : Geometry) (k : Byte) (lines cols : GroupOp) (s : State) :
    (ksCommitRegs g k lines cols s).dirs =
      s.dirs := rfl
@[simp] theorem ksCommitRegs_outs (g : Geometry) (k : Byte) (lines cols : GroupOp) (s : State) :
    (ksCommitRegs g k lines cols s).outs =
      s.outs := rfl
@[simp] theorem ksCommitRegs_latch (g : Geometry) (k : Byte) (lines cols : GroupOp) (s : State) :
    (ksCommitRegs g k lines cols s).latch =
      s.latch := rfl
@[simp] theorem ksCommitRegs_cmds (g : Geometry) (k : Byte) (lines cols : GroupOp) (s : State) :
    (ksCommitRegs g k lines cols s).cmds =
      s.cmds := rfl
@[simp] theorem ksCommitRegs_sched (g : Geometry) (k : Byte) (lines cols : GroupOp) (s : State) :
    (ksCommitRegs g k lines cols s).sched =
      s.sched := rfl
@[simp] theorem ksCommitRegs_draws (g : Geometry) (k : Byte) (lines cols : GroupOp) (s : State) :
    (ksCommitRegs g k lines cols s).draws =
      s.draws := rfl
@[simp] theorem ksCommitRegs_drawn (g : Geometry) (k : Byte) (lines cols : GroupOp) (s : State) :
    (ksCommitRegs g k lines cols s).drawn =
      s.drawn := rfl
@[simp] theorem ksCommitRegs_trace (g : Geometry) (k : Byte) (lines cols : GroupOp) (s : State) :
    (ksCommitRegs g k lines cols s).trace =
      s.trace := rfl

/-! ### setUPhase -/

@[simp] theorem setUPhase_params (u : UPhase) (s : State) : (setUPhase u s).params = s.params := rfl
@[simp] theorem setUPhase_ks (u : UPhase) (s : State) : (setUPhase u s).ks = s.ks := rfl
@[simp] theorem setUPhase_md (u : UPhase) (s : State) : (setUPhase u s).md = { s.md with uphase := u } := rfl
@[simp] theorem setUPhase_tickPending (u : UPhase) (s : State) : (setUPhase u s).tickPending = s.tickPending := rfl
@[simp] theorem setUPhase_masked (u : UPhase) (s : State) : (setUPhase u s).masked = s.masked := rfl
@[simp] theorem setUPhase_inTick (u : UPhase) (s : State) : (setUPhase u s).inTick = s.inTick := rfl
@[simp] theorem setUPhase_dirs (u : UPhase) (s : State) : (setUPhase u s).dirs = s.dirs := rfl
@[simp] theorem setUPhase_outs (u : UPhase) (s : State) : (setUPhase u s).outs = s.outs := rfl
@[simp] theorem setUPhase_latch (u : UPhase) (s : State) : (setUPhase u s).latch = s.latch := rfl
@[simp] theorem setUPhase_cmds (u : UPhase) (s : State) : (setUPhase u s).cmds = s.cmds := rfl
@[simp] theorem setUPhase_sched (u : UPhase) (s : State) : (setUPhase u s).sched = s.sched := rfl
@[simp] theorem setUPhase_draws (u : UPhase) (s : State) : (setUPhase u s).draws = s.draws := rfl
@[simp] theorem setUPhase_drawn (u : UPhase) (s : State) : (setUPhase u s).drawn = s.drawn := rfl
@[simp] theorem setUPhase_trace (u : UPhase) (s : State) : (setUPhase u s).trace = s.trace := rfl

/-! ### setMasked -/

@[simp] theorem setMasked_params (m : Bool) (s : State) : (setMasked m s).params = s.params := rfl
@[simp] theorem setMasked_ks (m : Bool) (s : State) : (setMasked m s).ks = s.ks := rfl
@[simp] theorem setMasked_md (m : Bool) (s : State) : (setMasked m s).md = s.md := rfl
@[simp] theorem setMasked_tickPending (m : Bool) (s : State) : (setMasked m s).tickPending = s.tickPending := rfl
@[simp] theorem setMasked_masked (m : Bool) (s : State) : (setMasked m s).masked = m := rfl
@[simp] theorem setMasked_inTick (m : Bool) (s : State) : (setMasked m s).inTick = s.inTick := rfl
@[simp] theorem setMasked_dirs (m : Bool) (s : State) : (setMasked m s).dirs = s.dirs := rfl
@[simp] theorem setMasked_outs (m : Bool) (s : State) : (setMasked m s).outs = s.outs := rfl
@[simp] theorem setMasked_latch (m : Bool) (s : State) : (setMasked m s).latch = s.latch := rfl
@[simp] theorem setMasked_cmds (m : Bool) (s : State) : (setMasked m s).cmds = s.cmds := rfl
@[simp] theorem setMasked_sched (m : Bool) (s : State) : (setMasked m s).sched = s.sched := rfl
@[simp] theorem setMasked_draws (m : Bool) (s : State) : (setMasked m s).draws = s.draws := rfl
@[simp] theorem setMasked_drawn (m : Bool) (s : State) : (setMasked m s).drawn = s.drawn := rfl
@[simp] theorem setMasked_trace (m : Bool) (s : State) : (setMasked m s).trace = s.trace := rfl

/-! ### setMaskedDue -/

@[simp] theorem setMaskedDue_params (m : Bool) (s : State) : (setMaskedDue m s).params = s.params := rfl
@[simp] theorem setMaskedDue_ks (m : Bool) (s : State) : (setMaskedDue m s).ks = s.ks := rfl
@[simp] theorem setMaskedDue_md (m : Bool) (s : State) : (setMaskedDue m s).md = { s.md with maskedDue := m } := rfl
@[simp] theorem setMaskedDue_tickPending (m : Bool) (s : State) :
    (setMaskedDue m s).tickPending =
      s.tickPending := rfl
@[simp] theorem setMaskedDue_masked (m : Bool) (s : State) : (setMaskedDue m s).masked = s.masked := rfl
@[simp] theorem setMaskedDue_inTick (m : Bool) (s : State) : (setMaskedDue m s).inTick = s.inTick := rfl
@[simp] theorem setMaskedDue_dirs (m : Bool) (s : State) : (setMaskedDue m s).dirs = s.dirs := rfl
@[simp] theorem setMaskedDue_outs (m : Bool) (s : State) : (setMaskedDue m s).outs = s.outs := rfl
@[simp] theorem setMaskedDue_latch (m : Bool) (s : State) : (setMaskedDue m s).latch = s.latch := rfl
@[simp] theorem setMaskedDue_cmds (m : Bool) (s : State) : (setMaskedDue m s).cmds = s.cmds := rfl
@[simp] theorem setMaskedDue_sched (m : Bool) (s : State) : (setMaskedDue m s).sched = s.sched := rfl
@[simp] theorem setMaskedDue_draws (m : Bool) (s : State) : (setMaskedDue m s).draws = s.draws := rfl
@[simp] theorem setMaskedDue_drawn (m : Bool) (s : State) : (setMaskedDue m s).drawn = s.drawn := rfl
@[simp] theorem setMaskedDue_trace (m : Bool) (s : State) : (setMaskedDue m s).trace = s.trace := rfl

/-! ### mdCommitRegs -/

@[simp] theorem mdCommitRegs_params (n : Nat) (pol : Polarity) (s : State) :
    (mdCommitRegs n pol s).params =
      s.params := rfl
@[simp] theorem mdCommitRegs_ks (n : Nat) (pol : Polarity) (s : State) : (mdCommitRegs n pol s).ks = s.ks := rfl
@[simp] theorem mdCommitRegs_md (n : Nat) (pol : Polarity) (s : State) :
    (mdCommitRegs n pol s).md =
      { s.md with activeDigit := none, portsSet := false, n := n, pol := pol, buf := [], sel := false, idx := 0, uphase := .idle, maskedDue := false, configured := true } := rfl
@[simp] theorem mdCommitRegs_tickPending (n : Nat) (pol : Polarity) (s : State) :
    (mdCommitRegs n pol s).tickPending =
      s.tickPending := rfl
@[simp] theorem mdCommitRegs_masked (n : Nat) (pol : Polarity) (s : State) :
    (mdCommitRegs n pol s).masked =
      s.masked := rfl
@[simp] theorem mdCommitRegs_inTick (n : Nat) (pol : Polarity) (s : State) :
    (mdCommitRegs n pol s).inTick =
      s.inTick := rfl
@[simp] theorem mdCommitRegs_dirs (n : Nat) (pol : Polarity) (s : State) : (mdCommitRegs n pol s).dirs = s.dirs := rfl
@[simp] theorem mdCommitRegs_outs (n : Nat) (pol : Polarity) (s : State) : (mdCommitRegs n pol s).outs = s.outs := rfl
@[simp] theorem mdCommitRegs_latch (n : Nat) (pol : Polarity) (s : State) :
    (mdCommitRegs n pol s).latch =
      s.latch := rfl
@[simp] theorem mdCommitRegs_cmds (n : Nat) (pol : Polarity) (s : State) : (mdCommitRegs n pol s).cmds = s.cmds := rfl
@[simp] theorem mdCommitRegs_sched (n : Nat) (pol : Polarity) (s : State) :
    (mdCommitRegs n pol s).sched =
      s.sched := rfl
@[simp] theorem mdCommitRegs_draws (n : Nat) (pol : Polarity) (s : State) :
    (mdCommitRegs n pol s).draws =
      s.draws := rfl
@[simp] theorem mdCommitRegs_drawn (n : Nat) (pol : Polarity) (s : State) :
    (mdCommitRegs n pol s).drawn =
      s.drawn := rfl
@[simp] theorem mdCommitRegs_trace (n : Nat) (pol : Polarity) (s : State) :
    (mdCommitRegs n pol s).trace =
      s.trace := rfl

/-! ### portsCommitRegs -/

@[simp] theorem portsCommitRegs_params (data ctrl : GroupOp) (act : Level) (s : State) :
    (portsCommitRegs data ctrl act s).params =
      s.params := rfl
@[simp] theorem portsCommitRegs_ks (data ctrl : GroupOp) (act : Level) (s : State) :
    (portsCommitRegs data ctrl act s).ks =
      s.ks := rfl
@[simp] theorem portsCommitRegs_md (data ctrl : GroupOp) (act : Level) (s : State) :
    (portsCommitRegs data ctrl act s).md =
      { s.md with activeDigit := none, dataGrp := boundGroup data, ctrlGrp := boundGroup ctrl, act := act, portsSet := true } := rfl
@[simp] theorem portsCommitRegs_tickPending (data ctrl : GroupOp) (act : Level) (s : State) :
    (portsCommitRegs data ctrl act s).tickPending =
      s.tickPending := rfl
@[simp] theorem portsCommitRegs_masked (data ctrl : GroupOp) (act : Level) (s : State) :
    (portsCommitRegs data ctrl act s).masked =
      s.masked := rfl
@[simp] theorem portsCommitRegs_inTick (data ctrl : GroupOp) (act : Level) (s : State) :
    (portsCommitRegs data ctrl act s).inTick =
      s.inTick := rfl
@[simp] theorem portsCommitRegs_dirs (data ctrl : GroupOp) (act : Level) (s : State) :
    (portsCommitRegs data ctrl act s).dirs =
      s.dirs := rfl
@[simp] theorem portsCommitRegs_outs (data ctrl : GroupOp) (act : Level) (s : State) :
    (portsCommitRegs data ctrl act s).outs =
      s.outs := rfl
@[simp] theorem portsCommitRegs_latch (data ctrl : GroupOp) (act : Level) (s : State) :
    (portsCommitRegs data ctrl act s).latch =
      s.latch := rfl
@[simp] theorem portsCommitRegs_cmds (data ctrl : GroupOp) (act : Level) (s : State) :
    (portsCommitRegs data ctrl act s).cmds =
      s.cmds := rfl
@[simp] theorem portsCommitRegs_sched (data ctrl : GroupOp) (act : Level) (s : State) :
    (portsCommitRegs data ctrl act s).sched =
      s.sched := rfl
@[simp] theorem portsCommitRegs_draws (data ctrl : GroupOp) (act : Level) (s : State) :
    (portsCommitRegs data ctrl act s).draws =
      s.draws := rfl
@[simp] theorem portsCommitRegs_drawn (data ctrl : GroupOp) (act : Level) (s : State) :
    (portsCommitRegs data ctrl act s).drawn =
      s.drawn := rfl
@[simp] theorem portsCommitRegs_trace (data ctrl : GroupOp) (act : Level) (s : State) :
    (portsCommitRegs data ctrl act s).trace =
      s.trace := rfl

/-! ### enterTick -/

@[simp] theorem enterTick_params (s : State) : (enterTick s).params = s.params := rfl
@[simp] theorem enterTick_ks (s : State) : (enterTick s).ks = s.ks := rfl
@[simp] theorem enterTick_md (s : State) : (enterTick s).md = s.md := rfl
@[simp] theorem enterTick_tickPending (s : State) : (enterTick s).tickPending = false := rfl
@[simp] theorem enterTick_masked (s : State) : (enterTick s).masked = s.masked := rfl
@[simp] theorem enterTick_inTick (s : State) : (enterTick s).inTick = true := rfl
@[simp] theorem enterTick_dirs (s : State) : (enterTick s).dirs = s.dirs := rfl
@[simp] theorem enterTick_outs (s : State) : (enterTick s).outs = s.outs := rfl
@[simp] theorem enterTick_latch (s : State) : (enterTick s).latch = s.latch := rfl
@[simp] theorem enterTick_cmds (s : State) : (enterTick s).cmds = s.cmds := rfl
@[simp] theorem enterTick_sched (s : State) : (enterTick s).sched = s.sched := rfl
@[simp] theorem enterTick_draws (s : State) : (enterTick s).draws = s.draws := rfl
@[simp] theorem enterTick_drawn (s : State) : (enterTick s).drawn = s.drawn := rfl
@[simp] theorem enterTick_trace (s : State) : (enterTick s).trace = s.trace := rfl

/-! ### leaveTick -/

@[simp] theorem leaveTick_params (s : State) : (leaveTick s).params = s.params := rfl
@[simp] theorem leaveTick_ks (s : State) : (leaveTick s).ks = s.ks := rfl
@[simp] theorem leaveTick_md (s : State) : (leaveTick s).md = s.md := rfl
@[simp] theorem leaveTick_tickPending (s : State) : (leaveTick s).tickPending = s.tickPending := rfl
@[simp] theorem leaveTick_masked (s : State) : (leaveTick s).masked = s.masked := rfl
@[simp] theorem leaveTick_inTick (s : State) : (leaveTick s).inTick = false := rfl
@[simp] theorem leaveTick_dirs (s : State) : (leaveTick s).dirs = s.dirs := rfl
@[simp] theorem leaveTick_outs (s : State) : (leaveTick s).outs = s.outs := rfl
@[simp] theorem leaveTick_latch (s : State) : (leaveTick s).latch = s.latch := rfl
@[simp] theorem leaveTick_cmds (s : State) : (leaveTick s).cmds = s.cmds := rfl
@[simp] theorem leaveTick_sched (s : State) : (leaveTick s).sched = s.sched := rfl
@[simp] theorem leaveTick_draws (s : State) : (leaveTick s).draws = s.draws := rfl
@[simp] theorem leaveTick_drawn (s : State) : (leaveTick s).drawn = s.drawn := rfl
@[simp] theorem leaveTick_trace (s : State) : (leaveTick s).trace = s.trace := rfl

/-! ### strobe -/

@[simp] theorem strobe_params (s : State) : (strobe s).params = s.params := rfl
@[simp] theorem strobe_ks (s : State) : (strobe s).ks = s.ks := rfl
@[simp] theorem strobe_md (s : State) : (strobe s).md = s.md := rfl
@[simp] theorem strobe_tickPending (s : State) : (strobe s).tickPending = true := rfl
@[simp] theorem strobe_masked (s : State) : (strobe s).masked = s.masked := rfl
@[simp] theorem strobe_inTick (s : State) : (strobe s).inTick = s.inTick := rfl
@[simp] theorem strobe_dirs (s : State) : (strobe s).dirs = s.dirs := rfl
@[simp] theorem strobe_outs (s : State) : (strobe s).outs = s.outs := rfl
@[simp] theorem strobe_latch (s : State) : (strobe s).latch = s.latch := rfl
@[simp] theorem strobe_cmds (s : State) : (strobe s).cmds = s.cmds := rfl
@[simp] theorem strobe_sched (s : State) : (strobe s).sched = s.sched := rfl
@[simp] theorem strobe_draws (s : State) : (strobe s).draws = s.draws := rfl
@[simp] theorem strobe_drawn (s : State) : (strobe s).drawn = s.drawn := rfl
@[simp] theorem strobe_trace (s : State) : (strobe s).trace = s.trace := rfl

/-! ### systemReset -/

@[simp] theorem systemReset_params (kept : Bool) (s : State) : (systemReset kept s).params = s.params := rfl
@[simp] theorem systemReset_ks (kept : Bool) (s : State) : (systemReset kept s).ks = Ks.reset := rfl
@[simp] theorem systemReset_md (kept : Bool) (s : State) : (systemReset kept s).md = Md.reset := rfl
@[simp] theorem systemReset_tickPending (kept : Bool) (s : State) : (systemReset kept s).tickPending = false := rfl
@[simp] theorem systemReset_masked (kept : Bool) (s : State) : (systemReset kept s).masked = false := rfl
@[simp] theorem systemReset_inTick (kept : Bool) (s : State) : (systemReset kept s).inTick = false := rfl
@[simp] theorem systemReset_dirs (kept : Bool) (s : State) :
    (systemReset kept s).dirs =
      if kept then s.dirs else [] := rfl
@[simp] theorem systemReset_outs (kept : Bool) (s : State) :
    (systemReset kept s).outs =
      if kept then s.outs else [] := rfl
@[simp] theorem systemReset_latch (kept : Bool) (s : State) : (systemReset kept s).latch = none := rfl
@[simp] theorem systemReset_cmds (kept : Bool) (s : State) : (systemReset kept s).cmds = s.cmds := rfl
@[simp] theorem systemReset_sched (kept : Bool) (s : State) : (systemReset kept s).sched = s.sched := rfl
@[simp] theorem systemReset_draws (kept : Bool) (s : State) : (systemReset kept s).draws = s.draws := rfl
@[simp] theorem systemReset_drawn (kept : Bool) (s : State) : (systemReset kept s).drawn = s.drawn := rfl
@[simp] theorem systemReset_trace (kept : Bool) (s : State) : (systemReset kept s).trace = s.trace := rfl

/-! ### popTurn -/

@[simp] theorem popTurn_params (s : State) : (s.popTurn).params = s.params := rfl
@[simp] theorem popTurn_ks (s : State) : (s.popTurn).ks = s.ks := rfl
@[simp] theorem popTurn_md (s : State) : (s.popTurn).md = s.md := rfl
@[simp] theorem popTurn_tickPending (s : State) : (s.popTurn).tickPending = s.tickPending := rfl
@[simp] theorem popTurn_masked (s : State) : (s.popTurn).masked = s.masked := rfl
@[simp] theorem popTurn_inTick (s : State) : (s.popTurn).inTick = s.inTick := rfl
@[simp] theorem popTurn_dirs (s : State) : (s.popTurn).dirs = s.dirs := rfl
@[simp] theorem popTurn_outs (s : State) : (s.popTurn).outs = s.outs := rfl
@[simp] theorem popTurn_latch (s : State) : (s.popTurn).latch = s.latch := rfl
@[simp] theorem popTurn_cmds (s : State) : (s.popTurn).cmds = s.cmds := rfl
@[simp] theorem popTurn_sched (s : State) : (s.popTurn).sched = s.sched.drop 1 := rfl
@[simp] theorem popTurn_draws (s : State) : (s.popTurn).draws = s.draws := rfl
@[simp] theorem popTurn_drawn (s : State) : (s.popTurn).drawn = s.drawn := rfl
@[simp] theorem popTurn_trace (s : State) : (s.popTurn).trace = s.trace := rfl

end Sys2Proof.Machine
end

