-- ==== Sys2Proof/Laws/Ops.lean ====
section
/-! SUPPORT. What each shared operation can do, said once: sequencing, sparse stores and RAMs and their canonical form,
the pin primitives, runs of pin writes, and RAM accesses. -/

namespace Sys2Proof.Machine

/-! ### Sequencing -/

@[simp] theorem andThen_next (s : State) (f : State → Out) : andThen (.next s) f = f s := rfl
@[simp] theorem andThen_fault (r : Fault) (f : State → Out) : andThen (.fault r) f = .fault r := rfl
@[simp] theorem andThen_refused (r : Refusal) (f : State → Out) : andThen (.refused r) f = .refused r := rfl

/-- A sequence answers a next state exactly if its first part does and its second part does from there. -/
theorem andThen_eq_next {o : Out} {f : State → Out} {t : State} :
    andThen o f = .next t ↔ ∃ u, o = .next u ∧ f u = .next t := by
  cases o <;> simp

@[simp] theorem next_inj (s t : State) : ((.next s : Out) = .next t) ↔ s = t :=
  ⟨fun h => by injection h, fun h => by rw [h]⟩

/-! ### Sparse stores -/

@[simp] theorem Cells.get?_nil {α : Type} (k : Nat) : Cells.get? ([] : Cells α) k = none := rfl

/-- A read after a write: the value at its key, and every other key as before. -/
theorem Cells.get?_put {α : Type} (m : Cells α) (k k' : Nat) (v : α) :
    Cells.get? (Cells.put m k v) k' = if k' = k then some v else Cells.get? m k' := by
  induction m with
  | nil => simp [Cells.put, Cells.get?]
  | cons c rest ih =>
    obtain ⟨a, w⟩ := c
    simp only [Cells.put]
    split
    · simp [Cells.get?]
    · split
      · next h => subst h; simp only [Cells.get?]; split <;> simp_all
      · simp only [Cells.get?, ih]; split <;> split <;> simp_all

/-- A read after an erasure: nothing at its key, and every other key as before. -/
theorem Cells.get?_erase {α : Type} (m : Cells α) (k k' : Nat) :
    Cells.get? (Cells.erase m k) k' = if k' = k then none else Cells.get? m k' := by
  induction m with
  | nil => simp [Cells.erase]
  | cons c rest ih =>
    obtain ⟨a, w⟩ := c
    simp only [Cells.erase, ne_eq, decide_not] at ih ⊢
    by_cases hk : a = k
    · simp only [List.filter_cons, hk, decide_true, Bool.not_true, Bool.false_eq_true, if_false, ih, Cells.get?]
      split <;> simp_all
    · simp only [List.filter_cons, hk, decide_false, Bool.not_false, if_true, Cells.get?, ih]
      split <;> split <;> simp_all

/-- Every cell of a store after a write is the written one or was there before. -/
theorem Cells.mem_put {α : Type} {m : Cells α} {k : Nat} {v : α} {c : Nat × α} (h : c ∈ Cells.put m k v) :
    c = (k, v) ∨ c ∈ m := by
  induction m with
  | nil => simpa [Cells.put] using h
  | cons d rest ih =>
    obtain ⟨a, w⟩ := d
    simp only [Cells.put] at h
    split at h
    · simpa using h
    · split at h
      · rcases List.mem_cons.mp h with h | h
        · exact .inl h
        · exact .inr (List.mem_cons_of_mem _ h)
      · rcases List.mem_cons.mp h with h | h
        · exact .inr (h ▸ List.mem_cons_self ..)
        · exact (ih h).imp_right (List.mem_cons_of_mem _)

/-- A write keeps the keys rising. -/
theorem Cells.wf_put {α : Type} {m : Cells α} (h : Cells.wf m) (k : Nat) (v : α) : Cells.wf (Cells.put m k v) := by
  induction m with
  | nil => simp [Cells.wf, Cells.put]
  | cons c rest ih =>
    obtain ⟨a, w⟩ := c
    obtain ⟨hhead, htail⟩ := List.pairwise_cons.mp h
    simp only [Cells.put]
    split
    · next hlt =>
      refine List.pairwise_cons.mpr ⟨fun b hb => ?_, h⟩
      rcases List.mem_cons.mp hb with rfl | hb
      · exact hlt
      · exact Nat.lt_trans hlt (hhead b hb)
    · split
      · next heq => subst heq; exact List.pairwise_cons.mpr ⟨hhead, htail⟩
      · next hlt hne =>
        refine List.pairwise_cons.mpr ⟨fun b hb => ?_, ih htail⟩
        rcases Cells.mem_put hb with rfl | hb
        · show a < k; omega
        · exact hhead b hb

/-- An erasure keeps the keys rising. -/
theorem Cells.wf_erase {α : Type} {m : Cells α} (h : Cells.wf m) (k : Nat) : Cells.wf (Cells.erase m k) :=
  List.Pairwise.filter _ h

/-! ### RAMs -/

@[simp] theorem Memory.read_nil (a : Nat) : Memory.read [] a = 0x00 := rfl

/-- A byte read after a byte write. -/
theorem Memory.read_write (m : Memory) (a b : Nat) (v : Byte) :
    Memory.read (Memory.write m a v) b = if b = a then v else Memory.read m b := by
  unfold Memory.read Memory.write
  split
  · next h => rw [Cells.get?_erase]; split <;> simp [h]
  · rw [Cells.get?_put]; split <;> simp

/-- The empty RAM, which reset leaves, is in canonical form. -/
theorem Memory.wf_nil : Memory.wf [] := by simp [Memory.wf, Cells.wf]

/-- A byte write keeps a RAM's canonical form. -/
theorem Memory.wf_write {m : Memory} (h : Memory.wf m) (a : Nat) (v : Byte) : Memory.wf (Memory.write m a v) := by
  unfold Memory.write
  split
  · exact ⟨Cells.wf_erase h.1 a, fun c hc => h.2 c (List.mem_filter.mp hc).1⟩
  · next hv =>
    refine ⟨Cells.wf_put h.1 a v, fun c hc => ?_⟩
    rcases Cells.mem_put hc with rfl | hc
    · exact hv
    · exact h.2 c hc

/-- A byte write below a RAM's end lists nothing past it. -/
theorem Memory.below_write {m : Memory} {n : Nat} (h : Memory.below m n) {a : Nat} (ha : a < n) (v : Byte) :
    Memory.below (Memory.write m a v) n := by
  unfold Memory.write
  split
  · exact fun c hc => h c (List.mem_filter.mp hc).1
  · intro c hc
    rcases Cells.mem_put hc with rfl | hc
    · exact ha
    · exact h c hc

/-- Both RAMs and both pin stores are in canonical form after reset. -/
theorem reset_stores_wf :
    Memory.wf State.reset.ks.keyMap ∧ Memory.wf State.reset.md.buf ∧ Cells.wf State.reset.dirs ∧ Cells.wf State.reset.outs :=
  ⟨Memory.wf_nil, Memory.wf_nil, List.Pairwise.nil, List.Pairwise.nil⟩

/-- The two buffers' entries have different addresses. -/
theorem bufAddr_inj {b b' : Bool} {d d' : Nat} (hd : d < 8) (hd' : d' < 8) :
    bufAddr b d = bufAddr b' d' ↔ b = b' ∧ d = d' := by
  cases b <;> cases b' <;> simp [bufAddr, Config.maxDigits] <;> omega

theorem bufAddr_lt {b : Bool} {d : Nat} (hd : d < 8) : bufAddr b d < 2 * Config.maxDigits := by
  cases b <;> simp [bufAddr, Config.maxDigits] <;> omega

/-- A key-map write answers a next state exactly inside the RAM, and changes that byte. -/
theorem keyMapWrite_eq_next {i : Nat} {v : Byte} {s t : State} :
    keyMapWrite i v s = .next t ↔
      i < 16 ∧ t = { s with ks := { s.ks with keyMap := Memory.write s.ks.keyMap i v } } := by
  unfold keyMapWrite Config.keyMapSize
  split <;> simp_all [eq_comm]

/-- What a key-map read gives after a key-map write. -/
theorem keyMapRead_write {i j : Nat} {v : Byte} {s t : State} (h : keyMapWrite i v s = .next t) :
    t.keyMapRead j = if j = i then some v else s.keyMapRead j := by
  obtain ⟨hi, rfl⟩ := keyMapWrite_eq_next.mp h
  simp only [State.keyMapRead, Config.keyMapSize, Memory.read_write]
  by_cases hj : j = i
  · simp [hj, hi]
  · by_cases hlt : j < 16 <;> simp [hj, hlt]

/-- Loading a map that fits answers a next state: only the key map changes, entry by entry, and it stays canonical. -/
theorem keyMapLoad_spec (vs : List Byte) (i : Nat) (s : State) (hfit : i + vs.length ≤ 16) :
    ∃ m, keyMapLoad i vs s = .next { s with ks := { s.ks with keyMap := m } } ∧
      (∀ j, Memory.read m j = if i ≤ j ∧ j < i + vs.length then vs.getD (j - i) 0 else Memory.read s.ks.keyMap j) ∧
      (Memory.wf s.ks.keyMap → Memory.wf m) ∧ (Memory.below s.ks.keyMap 16 → Memory.below m 16) := by
  induction vs generalizing i s with
  | nil => exact ⟨s.ks.keyMap, rfl, fun j => by simp, id, id⟩
  | cons v rest ih =>
    simp only [List.length_cons] at hfit
    have hi : i < 16 := by omega
    obtain ⟨m, hrun, hread, hwf, hbelow⟩ :=
      ih (i + 1) { s with ks := { s.ks with keyMap := Memory.write s.ks.keyMap i v } } (by omega)
    refine ⟨m, ?_, fun j => ?_, fun h => hwf (Memory.wf_write h i v), fun h => hbelow (Memory.below_write h hi v)⟩
    · simp [keyMapLoad, keyMapWrite, Config.keyMapSize, hi, hrun]
    · rw [hread, Memory.read_write]
      by_cases hj : j = i
      · subst hj; simp
      · by_cases hin : i + 1 ≤ j ∧ j < i + 1 + rest.length
        · have h1 : i ≤ j ∧ j < i + (v :: rest).length := by simp only [List.length_cons]; omega
          have h2 : j - i = (j - (i + 1)) + 1 := by omega
          rw [if_pos hin, if_pos h1, h2]
          simp
        · have h1 : ¬ (i ≤ j ∧ j < i + (v :: rest).length) := by simp only [List.length_cons]; omega
          rw [if_neg hin, if_neg h1, if_neg hj]

/-- A digit-buffer write answers a next state exactly for a position of a buffer, and changes that entry. -/
theorem bufWrite_eq_next {b : Bool} {d : Nat} {v : Byte} {s t : State} :
    bufWrite b d v s = .next t ↔
      d < 8 ∧ t = { s with md := { s.md with buf := Memory.write s.md.buf (bufAddr b d) v } } := by
  unfold bufWrite Config.maxDigits
  split <;> simp_all [eq_comm]

/-- What a digit-buffer read gives after a digit-buffer write. -/
theorem bufRead_write {b b' : Bool} {d d' : Nat} {v : Byte} {s t : State} (h : bufWrite b d v s = .next t) :
    t.bufRead b' d' = if b' = b ∧ d' = d then some v else s.bufRead b' d' := by
  obtain ⟨hd, rfl⟩ := bufWrite_eq_next.mp h
  simp only [State.bufRead, Config.maxDigits, Memory.read_write]
  by_cases hd' : d' < 8
  · simp only [hd', if_true, bufAddr_inj hd' hd]
    split <;> rfl
  · have : ¬ (b' = b ∧ d' = d) := fun hc => hd' (hc.2 ▸ hd)
    simp [hd', this]

/-! ### Pins -/

/-- Different pins have different keys. -/
theorem pinKey_inj {b b' : PortBase} {p p' : Nat} : pinKey b p = pinKey b' p' ↔ b = b' ∧ p = p' := by
  constructor
  · intro h
    have hb := b.isLt
    have hb' := b'.isLt
    simp only [pinKey] at h
    exact ⟨BitVec.eq_of_toNat_eq (by omega), by omega⟩
  · rintro ⟨rfl, rfl⟩; rfl

/-- A pin read from a store after a pin write. -/
theorem get?_put_pin {m : Cells Level} {b b' : PortBase} {p p' : Nat} {lv : Level} :
    Cells.get? (Cells.put m (pinKey b p) lv) (pinKey b' p') =
      if b' = b ∧ p' = p then some lv else Cells.get? m (pinKey b' p') := by
  simp only [Cells.get?_put, pinKey_inj]

/-- A pin write answers a next state exactly if the pin is not the other unit's. -/
theorem gpioWrite_eq_next {u : Owner} {base : PortBase} {pin : Nat} {lv : Level} {s t : State} :
    gpioWrite u base pin lv s = .next t ↔
      s.conflict u base pin = false ∧
      t = { s with outs := Cells.put s.outs (pinKey base pin) lv, trace := s.trace ++ [.write base pin lv] } := by
  unfold gpioWrite
  split
  · next h => exact ⟨fun e => (nomatch e), fun e => absurd (h.symm.trans e.1) (by decide)⟩
  · next h => exact ⟨fun e => ⟨Bool.eq_false_iff.mpr h, (next_inj ..).mp e.symm⟩, fun e => e.2 ▸ rfl⟩

/-- A pin write on the other unit's pin is a conflict. -/
theorem gpioWrite_conflict {u : Owner} {base : PortBase} {pin : Nat} (lv : Level) {s : State}
    (h : s.conflict u base pin = true) : gpioWrite u base pin lv s = .fault .pinConflict := by
  simp [gpioWrite, h]

/-- The output latches after a pin write. -/
theorem gpioWrite_pinOut {u : Owner} {base : PortBase} {pin : Nat} {lv : Level} {s t : State}
    (h : gpioWrite u base pin lv s = .next t) (b : PortBase) (p : Nat) :
    t.pinOut b p = if b = base ∧ p = pin then lv else s.pinOut b p := by
  obtain ⟨-, rfl⟩ := gpioWrite_eq_next.mp h
  simp only [State.pinOut, get?_put_pin]
  split <;> simp

/-- A pin read answers a next state exactly if the pin is not the other unit's: one answer is used up, and one event joins the
trace. -/
theorem gpioRead_eq_next {u : Owner} {base : PortBase} {pin : Nat} {s t : State} :
    gpioRead u base pin s = .next t ↔
      s.conflict u base pin = false ∧
      t = { s with draws := s.draws.drop 1, drawn := s.drawn + 1,
                   trace := s.trace ++ [.read base pin (s.drawAt 0 base pin)] } := by
  unfold gpioRead
  split
  · next h => exact ⟨fun e => (nomatch e), fun e => absurd (h.symm.trans e.1) (by decide)⟩
  · next h => exact ⟨fun e => ⟨Bool.eq_false_iff.mpr h, (next_inj ..).mp e.symm⟩, fun e => e.2 ▸ rfl⟩

/-- Which units a pin is bound to depends on the unit's registers alone. -/
theorem conflict_congr {u : Owner} {s t : State} (hks : t.ks = s.ks) (hmd : t.md = s.md) (base : PortBase) (pin : Nat) :
    t.conflict u base pin = s.conflict u base pin := by
  cases u <;> simp [State.conflict, State.ksBound, State.mdBound, hks, hmd]

/-- The events of a run of pin writes. -/
def writeEvents (base : PortBase) (pin : Nat) : List Level → List Obs
  | [] => []
  | lv :: rest => .write base pin lv :: writeEvents base (pin + 1) rest

/-- A run of writes on pins of which none is the other unit's: each pin takes its level, nothing else changes, the events are
one write a pin in order, and the pin store stays canonical. -/
theorem gpioWriteRun_spec (u : Owner) (base : PortBase) (lvs : List Level) (pin : Nat) (s : State)
    (hfree : ∀ i < lvs.length, s.conflict u base (pin + i) = false) :
    ∃ outs, gpioWriteRun u base pin lvs s =
        .next { s with outs := outs, trace := s.trace ++ writeEvents base pin lvs } ∧
      (∀ b p, (Cells.get? outs (pinKey b p)) =
        if b = base ∧ pin ≤ p ∧ p < pin + lvs.length then lvs[p - pin]? else Cells.get? s.outs (pinKey b p)) ∧
      (Cells.wf s.outs → Cells.wf outs) := by
  induction lvs generalizing pin s with
  | nil => exact ⟨s.outs, by simp [gpioWriteRun, writeEvents], fun b p => by simp, id⟩
  | cons lv rest ih =>
    have h0 : s.conflict u base pin = false := by simpa using hfree 0 (by simp)
    obtain ⟨outs, hrun, hget, hwf⟩ := ih (pin + 1)
      { s with outs := Cells.put s.outs (pinKey base pin) lv, trace := s.trace ++ [.write base pin lv] }
      (fun i hi => by
        rw [conflict_congr rfl rfl]
        have := hfree (i + 1) (by simpa using hi)
        rwa [show pin + 1 + i = pin + (i + 1) by omega])
    refine ⟨outs, ?_, fun b p => ?_, fun h => hwf (Cells.wf_put h _ _)⟩
    · simp [gpioWriteRun, gpioWrite, h0, State.emit, hrun, writeEvents]
    · rw [hget, get?_put_pin]
      by_cases hb : b = base
      · by_cases hp : p = pin
        · subst hp; simp [hb]
        · by_cases hin : pin + 1 ≤ p ∧ p < pin + 1 + rest.length
          · have h1 : pin ≤ p ∧ p < pin + (lv :: rest).length := by simp only [List.length_cons]; omega
            have h2 : p - pin = (p - (pin + 1)) + 1 := by omega
            rw [if_pos ⟨hb, hin⟩, if_pos ⟨hb, h1⟩, h2, List.getElem?_cons_succ]
          · have h1 : ¬ (pin ≤ p ∧ p < pin + (lv :: rest).length) := by simp only [List.length_cons]; omega
            rw [if_neg (fun h => hin h.2), if_neg (fun h => hp h.2), if_neg (fun h => h1 h.2)]
      · simp [hb]

/-- The directions after a list of pins took their bits. -/
theorem putDirs_get? (base : PortBase) (dirs : Byte) (pins : List Nat) (m : Cells Level) (b : PortBase) (p : Nat) :
    Cells.get? (putDirs base dirs pins m) (pinKey b p) =
      if b = base ∧ p ∈ pins then some (Level.ofBit (dirs.getLsbD p)) else Cells.get? m (pinKey b p) := by
  induction pins generalizing m with
  | nil => simp [putDirs]
  | cons q rest ih =>
    rw [putDirs, ih, get?_put_pin]
    by_cases hb : b = base
    · by_cases hp : p = q
      · subst hp; simp [hb]
      · simp [hb, hp]
    · simp [hb]

theorem putDirs_wf (base : PortBase) (dirs : Byte) (pins : List Nat) {m : Cells Level} (h : Cells.wf m) :
    Cells.wf (putDirs base dirs pins m) := by
  induction pins generalizing m with
  | nil => exact h
  | cons q rest ih => exact ih (Cells.wf_put h _ _)

theorem mem_maskPins {mask : Byte} {p : Nat} : p ∈ maskPins mask ↔ p < 8 ∧ mask.getLsbD p = true := by
  simp [maskPins, Config.portPins]

/-- A direction write answers a next state exactly if no masked pin is the other unit's. -/
theorem gpioSetDir_eq_next {u : Owner} {base : PortBase} {mask dirs : Byte} {s t : State} :
    gpioSetDir u base mask dirs s = .next t ↔
      (∀ p < 8, mask.getLsbD p = true → s.conflict u base p = false) ∧
      t = { s with dirs := putDirs base dirs (maskPins mask) s.dirs,
                   trace := s.trace ++ [.setDir base mask (dirs &&& mask)] } := by
  unfold gpioSetDir
  split
  · next h =>
    simp only [List.any_eq_true, mem_maskPins] at h
    obtain ⟨p, ⟨hp, hm⟩, hc⟩ := h
    refine ⟨fun h => (nomatch h), fun h => ?_⟩
    simp [h.1 p hp hm] at hc
  · next h =>
    simp only [List.any_eq_true, mem_maskPins, not_exists, not_and, Bool.not_eq_true] at h
    simp only [next_inj, State.emit]
    exact ⟨fun e => ⟨fun p hp hm => h p ⟨hp, hm⟩, e.symm⟩, fun e => e.2.symm⟩

end Sys2Proof.Machine
end

