-- ==== Sys2Proof/Laws/PerInstr.lean ====
section
/-! SUPPORT. A law of every instruction as syntax, one lemma per constructor: the opcode byte and the payload length of its
frame, as R81–R83 give them. -/

namespace Sys2Proof.Laws.Opcode

/-- The opcode byte of an instruction's frame has RSV = 000 (R81), is accepted on the instruction's own port and is in the map
of R82, and the frame is never longer than 520 bytes (R83 with length bytes of at most 255). -/
def Statement (i : Instr) : Prop :=
  (encodeFrame i).opcode.extractLsb' 5 3 = 0 ∧
  ((encodeFrame i).opcode ∈ commandOpcodes ↔ i.port = .command) ∧
  ((encodeFrame i).opcode = 0x14 ↔ i.port = .tick) ∧
  (i.wf = true → (encode i).length ≤ 520)

theorem ksConfigure (geom k : Byte) (lines cols : GroupOp) (map : List Byte) :
    Statement (.ksConfigure geom k lines cols map) := by
  refine ⟨by simp [encodeFrame], by simp [encodeFrame, commandOpcodes, Instr.port], by simp [encodeFrame, Instr.port], fun h => ?_⟩
  simp [Instr.wf, lengthFits] at h
  simp [encode, Frame.bytes, encodeFrame, encodeGroup]
  omega

theorem ksPoll : Statement .ksPoll := by
  refine ⟨by decide, by decide, by decide, fun _ => by decide⟩

theorem mdConfigure (ndig pol : Byte) : Statement (.mdConfigure ndig pol) := by
  refine ⟨by simp [encodeFrame], by simp [encodeFrame, commandOpcodes, Instr.port], by simp [encodeFrame, Instr.port], fun _ => ?_⟩
  simp [encode, Frame.bytes, encodeFrame]

theorem mdSetPorts (data ctrl : GroupOp) (act : Byte) : Statement (.mdSetPorts data ctrl act) := by
  refine ⟨by simp [encodeFrame], by simp [encodeFrame, commandOpcodes, Instr.port], by simp [encodeFrame, Instr.port], fun _ => ?_⟩
  simp [encode, Frame.bytes, encodeFrame, encodeGroup]

theorem mdUpdate (vals pts : List Byte) : Statement (.mdUpdate vals pts) := by
  refine ⟨by simp [encodeFrame], by simp [encodeFrame, commandOpcodes, Instr.port], by simp [encodeFrame, Instr.port], fun h => ?_⟩
  simp [Instr.wf, lengthFits] at h
  simp [encode, Frame.bytes, encodeFrame]
  omega

theorem mdAdvance : Statement .mdAdvance := by
  refine ⟨by decide, by decide, by decide, fun _ => by decide⟩

end Sys2Proof.Laws.Opcode
end

