-- ==== Sys2Proof/Machine/Bench.lean ====
section
/-! DEFINITION. The test bench the spec describes beside the hardware: the ideal-matrix oracle (20_memory.md R65), the
reference segment table (93_implementation_defined.md G6), and command streams in assembly form (30_encoding.md R95, R96).
None of it is a law of the hardware: the machine never calls this file. -/

namespace Sys2Proof.Machine

/-- `draw_ideal` (R65): what column c reads when exactly the keys of `keys` are pressed. -/
def State.idealLevel (s : State) (keys : List (Nat × Nat)) (c : Nat) : Level :=
  if (List.range s.ks.lines).any fun l =>
      keys.contains (l, c) &&
        s.pinDir s.ks.lineGrp.base (s.ks.lineGrp.first.toNat + l) = .high &&
        s.pinOut s.ks.lineGrp.base (s.ks.lineGrp.first.toNat + l) = s.params.kpActive
  then s.params.kpActive
  else inactiveKp s.params

/-- ENV set to answer the read of a SAMPLE micro-step as the ideal matrix does. -/
def State.withIdealMatrix (s : State) (keys : List (Nat × Nat)) : State :=
  match s.ks.phase with
  | .sample _ c => { s with draws := [s.idealLevel keys c] }
  | _ => s

/-- SEG_TABLE_REF (G6), for test vectors only; values 16..255 are dark. -/
def segTableRef : List (BitVec 7) :=
  [0x3F, 0x06, 0x5B, 0x4F, 0x66, 0x6D, 0x7D, 0x07, 0x7F, 0x6F, 0x77, 0x7C, 0x39, 0x5E, 0x79, 0x71]

/-- The parameters of every test vector (95_test_vectors.md section 0). -/
def vectorParams : Params := ⟨.low, .edge, .swap, [0x0025, 0x0028, 0x002B], segTableRef⟩

/-- One line of a command stream (R95), with the pseudo-instructions `tick*n` and `ks.poll*n` (R96). -/
inductive AsmLine where
  /-- `ks.configure geom=…, k=…, lines=base:first, cols=base:first, map=[…]` -/
  | ksConfigure (geom : Geometry) (k : Byte) (lines cols : GroupOp) (map : List Byte)
  /-- `ks.poll` -/
  | ksPoll
  /-- `md.configure n=…, pol=…` -/
  | mdConfigure (n : Byte) (pol : Polarity)
  /-- `md.setports data=base:first, ctrl=base:controlFirstPin, act=…` -/
  | mdSetPorts (data ctrl : GroupOp) (act : Level)
  /-- `md.update values=[…], points=[…]` -/
  | mdUpdate (values points : List Byte)
  /-- `tick`: one strobe and the TICK_STEP that takes it. -/
  | tick
  /-- `env keys=…`: the pressed set of the ideal matrix. -/
  | env (keys : List (Nat × Nat))
  /-- `ks.poll*n` -/
  | ksPollTimes (n : Nat)
  /-- `tick*n` -/
  | tickTimes (n : Nat)
  deriving DecidableEq, Repr

/-- The code of a geometry name. -/
def Geometry.code : Geometry → Byte
  | .g4x4 => 0
  | .g4x3 => 1
  | .g5x3 => 2

/-- The code of a polarity name. -/
def Polarity.code : Polarity → Byte
  | .cc => 0
  | .ca => 1

/-- The code of a level name. -/
def levelCode : Level → Byte
  | .low => 0
  | .high => 1

/-- The pseudo-instructions written out (R96). -/
def AsmLine.expand : AsmLine → List AsmLine
  | .ksPollTimes n => List.replicate n .ksPoll
  | .tickTimes n => List.replicate n .tick
  | l => [l]

/-- The instruction a line stands for; an `env` annotation and an unexpanded pseudo-instruction are none. -/
def AsmLine.instr? : AsmLine → Option Instr
  | .ksConfigure g k lines cols map => some (.ksConfigure g.code k lines cols map)
  | .ksPoll => some .ksPoll
  | .mdConfigure n pol => some (.mdConfigure n pol.code)
  | .mdSetPorts data ctrl act => some (.mdSetPorts data ctrl (levelCode act))
  | .mdUpdate values points => some (.mdUpdate values points)
  | .tick => some .mdAdvance
  | .env _ => none
  | .ksPollTimes _ => none
  | .tickTimes _ => none

/-- The bytes a line assembles to (R95). -/
def AsmLine.bytes (l : AsmLine) : List Byte :=
  match l.instr? with
  | some i => encode i
  | none => []

/-- MAIN's micro-steps, against the ideal matrix, until the command in flight has its response. -/
def runCommand (keys : List (Nat × Nat)) (fuel : Nat) (s : State) : Out :=
  match fuel with
  | 0 => .next s
  | n + 1 =>
    andThen (mainStep (s.withIdealMatrix keys)) fun t =>
    match t.latch with
    | none => .next t
    | some _ => runCommand keys n t

/-- One basic line (R95): a frame to its response, or a strobe and the step that takes it, both before the next line.
The fuel is above the 32 micro-steps no command exceeds (R216). -/
def runLine (keys : List (Nat × Nat)) (l : AsmLine) (s : State) : Out :=
  match l.instr? with
  | none => .next s
  | some .mdAdvance => tickStep (strobe s)
  | some i => runCommand keys 40 { s with latch := some (encodeFrame i) }

/-- A command stream, with the pressed set its last `env` line gave. -/
def runLines (keys : List (Nat × Nat)) (ls : List AsmLine) (s : State) : Out :=
  match ls with
  | [] => .next s
  | .env ks :: rest => runLines ks rest s
  | l :: rest => andThen (runLine keys l s) (runLines keys rest)

end Sys2Proof.Machine
end

