-- ==== Sys2Proof/Tests/Slice0.lean ====
section
/-! SUPPORT. Tests: the WellFormed smoke, words written out from the tables of 30_encoding.md, one-step tests with values from
95_test_vectors.md, and a state that meets the hypotheses of every statement that has some. -/

open Sys2Proof Sys2Proof.Machine

namespace Sys2Proof.Tests

/-! ### WellFormed smoke: one ill-formed term per check -/

/-- n zero bytes. -/
def zeros (n : Nat) : List Byte := List.replicate n 0

theorem zeros_length (n : Nat) : (zeros n).length = n := by simp [zeros]

theorem test_wf_map_too_long : (Instr.ksConfigure 0 1 ⟨0x0025, 0⟩ ⟨0x0025, 4⟩ (zeros 256)).wf = false := by
  simp [Instr.wf, lengthFits, zeros_length]
theorem test_wf_values_too_long : (Instr.mdUpdate (zeros 256) []).wf = false := by
  simp [Instr.wf, lengthFits, zeros_length]
theorem test_wf_points_too_long : (Instr.mdUpdate [] (zeros 256)).wf = false := by
  simp [Instr.wf, lengthFits, zeros_length]

/-! ### Words written out from the tables of R82 and R85–R90 (frames FA, P2, MU5 of 95_test_vectors.md) -/

/-- Frame FA, byte by byte. -/
theorem test_decode_ks_configure :
    decode .command [0x01, 0x00, 0x0A, 0x25, 0x00, 0x00, 0x25, 0x00, 0x04, 0x10,
      0x01, 0x02, 0x03, 0x0A, 0x04, 0x05, 0x06, 0x0B, 0x07, 0x08, 0x09, 0x0C, 0x0E, 0x00, 0x0F, 0x0D] =
    .ok (.ksConfigure 0 10 ⟨0x0025, 0⟩ ⟨0x0025, 4⟩ [1, 2, 3, 10, 4, 5, 6, 11, 7, 8, 9, 12, 14, 0, 15, 13]) := by rfl
theorem test_decode_ks_poll : decode .command [0b00000010] = .ok .ksPoll := by rfl
theorem test_decode_md_configure : decode .command [0b00010001, 0x02, 0x01] = .ok (.mdConfigure 2 1) := by rfl
theorem test_decode_md_setports : decode .command [0b00010010, 0x28, 0x00, 0x00, 0x2B, 0x01, 0x02, 0x01] =
    .ok (.mdSetPorts ⟨0x0028, 0⟩ ⟨0x012B, 2⟩ 1) := by rfl
theorem test_decode_md_update : decode .command [0b00010011, 0x02, 0x03, 0x03, 0x07, 0x00, 0x01, 0x02] =
    .ok (.mdUpdate [3, 7] [0, 1, 2]) := by rfl
theorem test_decode_md_advance : decode .tick [0b00010100] = .ok .mdAdvance := by rfl

/-- E1–E13: every one is rejected on the command port, by its reason. -/
theorem test_decode_rejects :
    [[0x00], [0x03], [0x10], [0x15], [0x20], [0xFF], [0x20, 0, 0]].map (fun w => decode .command w) =
      List.replicate 7 (.error .unassignedOpcode) ∧
    decode .command [0x14] = .error .wrongPort ∧ decode .tick [0x02] = .error .wrongPort ∧
    decode .command [] = .error .noOpcode ∧
    [[0x02, 0], [0x11, 2], [0x11, 2, 1, 0], [0x13, 2, 2, 3, 7, 0], [0x01, 0, 10, 0x25, 0, 0, 0x25, 0, 4, 2, 1]].map
      (fun w => decode .command w) = List.replicate 5 (.error .malformedLength) := by
  refine ⟨rfl, rfl, rfl, rfl, rfl⟩

/-- R95's own example: `md.configure n=2, pol=ca` is `11 02 01`; and P2's line 4. -/
theorem test_assembler :
    (AsmLine.mdConfigure 2 .ca).bytes = [0x11, 0x02, 0x01] ∧
    (AsmLine.mdSetPorts ⟨0x0028, 0⟩ ⟨0x002B, 2⟩ .high).bytes = [0x12, 0x28, 0x00, 0x00, 0x2B, 0x00, 0x02, 0x01] ∧
    (AsmLine.tickTimes 2).expand = [.tick, .tick] := by decide

/-- A table word of KS_CONFIGURE has zero operand bytes up to the fixed payload. -/
theorem test_decode_table_words :
    decodeTableWord 8 0x01 = some (.ksConfigure 0 0 ⟨0, 0⟩ ⟨0, 0⟩ []) ∧ decodeTableWord 8 0x02 = some .ksPoll ∧
    decodeTableWord 8 0x11 = some (.mdConfigure 0 0) ∧ decodeTableWord 8 0x12 = some (.mdSetPorts ⟨0, 0⟩ ⟨0, 0⟩ 0) ∧
    decodeTableWord 8 0x13 = some (.mdUpdate [] []) ∧ decodeTableWord 8 0x14 = some .mdAdvance ∧
    decodeTableWord 8 0x15 = none := by decide

/-! ### Small states, with the parameters of 95_test_vectors.md section 0 -/

/-- Reset, with the test vectors' parameters. -/
def base : State := { State.reset with params := vectorParams }

/-- The next state of an outcome. -/
def nx (o : Out) : State := (nextOf o).getD base

/-- The events and responses an outcome adds to `s`'s trace. -/
def added (s : State) (o : Out) : List Obs := (nx o).trace.drop s.trace.length

/-- The key map of Scenario A. -/
def mapA : List Byte := [1, 2, 3, 10, 4, 5, 6, 11, 7, 8, 9, 12, 14, 0, 15, 13]

/-- Frame FA with K = k: lines 0..3 and columns 4..7 of port 0x25. -/
def fa (k : Byte) : Instr := .ksConfigure 0 k ⟨0x0025, 0⟩ ⟨0x0025, 4⟩ mapA

/-- KC12: 5×3 with K = 255, lines 0..4 and columns 5..7 of port 0x25. -/
def kc12 : Instr := .ksConfigure 2 255 ⟨0x0025, 0⟩ ⟨0x0025, 5⟩ [1, 2, 3, 4, 5, 6, 7, 8, 9, 10, 11, 12, 13, 14, 15]

/-- N = 2, CA, unbound. -/
def unbound : State := nx (exec (.mdConfigure 2 1) base)

/-- MS9: data on port 0x28, selects on pins 2 and 3 of port 0x2B, active High. -/
def ms9 : Instr := .mdSetPorts ⟨0x0028, 0⟩ ⟨0x002B, 2⟩ 1

/-- Bound as MS9 binds. -/
def display : State := nx (exec ms9 unbound)

/-- The display after one tick. -/
def lit : State := nx (tickStep (strobe display))

/-- Both units, K = 2, after one tick; no command in flight. -/
def both : State := nx (exec (fa 2) lit)

/-- A poll in flight from `both`, whose reads see exactly the key (1,1) (KP15's draws). -/
def scan : State :=
  { both with
    latch := some (encodeFrame .ksPoll)
    draws := List.replicate 5 .high ++ [.low] ++ List.replicate 10 .high }

/-- That poll after m micro-steps. -/
def scanAt (m : Nat) : State := nx (iterExec .ksPoll m scan)

/-- A poll of a 5×3 keypad in flight. -/
def scan5 : State := { nx (exec kc12 base) with latch := some (encodeFrame .ksPoll), draws := List.replicate 15 .high }

/-- MU5's update in flight on the lit display. -/
def updating : State := { lit with latch := some (encodeFrame (.mdUpdate [3, 7] [0, 1])) }

/-- The same under CDC_SCHEME = MASK. -/
def updatingMask : State := { updating with params := { updating.params with cdcScheme := .mask } }

/-- The lit display with its update position at `u`. -/
def updateAt (u : UPhase) : State := { updating with md := { updating.md with uphase := u } }

/-! ### The invariant holds in these states -/

theorem inv_base : base.Inv := ⟨by decide, by decide, by decide, by decide, by decide, by decide, by decide⟩
theorem inv_unbound : unbound.Inv := ⟨by decide, by decide, by decide, by decide, by decide, by decide, by decide⟩
theorem inv_lit : lit.Inv := ⟨by decide, by decide, by decide, by decide, by decide, by decide, by decide⟩
theorem inv_both : both.Inv := ⟨by decide, by decide, by decide, by decide, by decide, by decide, by decide⟩
theorem inv_scan : scan.Inv := ⟨by decide, by decide, by decide, by decide, by decide, by decide, by decide⟩
theorem inv_scan5 : scan5.Inv := ⟨by decide, by decide, by decide, by decide, by decide, by decide, by decide⟩
theorem inv_updating : updating.Inv := ⟨by decide, by decide, by decide, by decide, by decide, by decide, by decide⟩
theorem inv_updatingMask : updatingMask.Inv := ⟨by decide, by decide, by decide, by decide, by decide, by decide, by decide⟩

/-- A state in the middle of a scan: line 1 is asserted, and column 2 is read next. -/
theorem inv_scan_middle : (scanAt 12).Inv ∧ (scanAt 12).ks.phase = .sample 1 2 :=
  ⟨⟨by decide, by decide, by decide, by decide, by decide, by decide, by decide⟩, by decide⟩

/-- Before DRIVE(0) and before the last RELEASE. -/
theorem inv_scan_ends : (scanAt 1).Inv ∧ (scanAt 28).Inv :=
  ⟨⟨by decide, by decide, by decide, by decide, by decide, by decide, by decide⟩,
    ⟨by decide, by decide, by decide, by decide, by decide, by decide, by decide⟩⟩

/-- A state in the middle of an update. -/
theorem inv_update_middle : (nx (iterExec (.mdUpdate [3, 7] [0, 1]) 2 updating)).Inv :=
  ⟨by decide, by decide, by decide, by decide, by decide, by decide, by decide⟩

/-! ### One step each, with the values of 95_test_vectors.md -/

/-- KC14: the ten pin events, in order, and the response. -/
theorem test_ks_configure_events : added base (exec (fa 10) base) =
    [.write 0x25 0 .high, .write 0x25 1 .high, .write 0x25 2 .high, .write 0x25 3 .high,
     .setDir 0x25 0x0F 0x0F, .setDir 0x25 0xF0 0x00,
     .write 0x25 4 .high, .write 0x25 5 .high, .write 0x25 6 .high, .write 0x25 7 .high, .response .ok 0x00] := by decide

/-- KC10 and KC11: the map length before K, and K before the ports. -/
theorem test_ks_configure_order :
    added base (exec (.ksConfigure 1 0 ⟨0x25, 0⟩ ⟨0x25, 4⟩ mapA) base) = [.response .invalidGeometry 0x00] ∧
    added base (exec (.ksConfigure 0 0 ⟨0x00, 0⟩ ⟨0x25, 4⟩ mapA) base) = [.response .invalidArgument 0x00] := by decide

/-- KP15: SAMPLE(1,1) reads Low and remembers raw index 5. -/
theorem test_poll_sample : (scanAt 11).ks.phase = .sample 1 1 ∧
    added (scanAt 11) (exec .ksPoll (scanAt 11)) = [.read 0x25 5 .low] ∧
    (nx (exec .ksPoll (scanAt 11))).ks.hit = some 5 := by decide

/-- KP2: DECIDE with key code 5 seen once before and K = 2 reports it under EDGE. -/
theorem test_poll_decide :
    added both (exec .ksPoll { both with ks := { both.ks with phase := .decide, hit := some 5, cand := 5, cnt := 1 } }) =
      [.response .ok 0x05] := by decide

/-- MC8: reconfiguring a running display deselects its lit digit. -/
theorem test_md_configure_deselects : added lit (exec (.mdConfigure 4 0) lit) =
    [.write 0x2B 2 .low, .response .ok 0x00] := by decide

/-- MC7: NDIG is checked before POL. -/
theorem test_md_configure_order : added base (exec (.mdConfigure 9 2) base) = [.response .invalidGeometry 0x00] := by decide

/-- MS9: the twelve pin events. -/
theorem test_md_setports_events : added unbound (exec ms9 unbound) =
    [.write 0x2B 2 .low, .write 0x2B 3 .low, .setDir 0x2B 0x0C 0x0C] ++
      (List.range 8).map (fun p => .write 0x28 p .high) ++ [.setDir 0x28 0xFF 0xFF, .response .ok 0x00] := by decide

/-- MS11: a rebind keeps md.idx and unlights the display. -/
theorem test_md_setports_rebind :
    (nx (exec (.mdSetPorts ⟨0x28, 0⟩ ⟨0x2B, 4⟩ 1) lit)).md.idx = 1 ∧
    (nx (exec (.mdSetPorts ⟨0x28, 0⟩ ⟨0x2B, 4⟩ 1) lit)).md.activeDigit = none := by decide

/-- MU5: WRITE(1) puts (0x07, 1) into the shadow buffer and leaves the active one blank. -/
theorem test_md_update_write :
    ((nx (exec (.mdUpdate [3, 7] [0, 1]) (updateAt (.write 1)))).shadowEntry 1).map Entry.ofByte = some ⟨0x07, true⟩ ∧
    (nx (exec (.mdUpdate [3, 7] [0, 1]) (updateAt (.write 1)))).activeEntry 1 = some 0x00 := by decide

/-- MU3: null sequences are InvalidArgument. -/
theorem test_md_update_null : added updating (exec (.mdUpdate [] []) updating) = [.response .invalidArgument 0x00] := by decide

/-- P3 step 3: the old "7." on digit 1, break before make. -/
theorem test_md_advance_events :
    added lit (exec .mdAdvance (enterTick { lit with md := { lit.md with buf := [(1, 0x87)] } })) =
    [.write 0x2B 2 .low,
     .write 0x28 0 .low, .write 0x28 1 .low, .write 0x28 2 .low, .write 0x28 3 .high,
     .write 0x28 4 .high, .write 0x28 5 .high, .write 0x28 6 .high, .write 0x28 7 .low,
     .write 0x2B 3 .high] := by decide

/-- MA2: an unbound tick emits nothing. -/
theorem test_md_advance_unbound : added unbound (exec .mdAdvance (enterTick unbound)) = [] := by decide

/-- X1: two strobes coalesce into one refresh. -/
theorem test_strobes : (nx (tickStep (strobe (strobe lit)))).md.idx = 0 ∧
    (nx (tickStep (strobe (strobe lit)))).tickPending = false := by decide

/-- R92's numbers. -/
theorem test_result_codes : [Result.ok, .notConfigured, .invalidGeometry, .portsNotSet, .invalidArgument,
    .illegalCommand].map Result.code = [0x00, 0x01, 0x02, 0x03, 0x04, 0x05] := by decide

/-- The first step after reset runs a placed word: X4's answers, and IllegalCommand for E6. -/
theorem test_fetch_words :
    (nx (step (State.reset.withFetchWord 8 0x02))).trace = [.response .notConfigured 0xFF] ∧
    (nx (step (State.reset.withFetchWord 8 0x12))).trace = [.response .notConfigured 0x00] ∧
    (nx (step (State.reset.withFetchWord 8 0x20))).trace = [.response .illegalCommand 0x00] ∧
    (nx (step (State.reset.withFetchWord 8 0x14))).trace = [] ∧
    (nx (step (State.reset.withFetchWord 8 0x14))).tickPending = false := by decide

/-! ### Witnesses of the hypotheses: encoding and steps -/

/-- DecodeOfEncode, at the longest map. -/
theorem witness_DecodeOfEncode :
    (Instr.ksConfigure 3 0 ⟨0xFFFF, 0xFF⟩ ⟨0x0000, 8⟩ (zeros 255)).wf = true := by
  simp [Instr.wf, lengthFits, zeros_length]

/-- EncodeOfDecode, with a length byte of 255. -/
theorem witness_EncodeOfDecode :
    (decode .command (0x13 :: 0xFF :: 0x00 :: zeros 255)).toOption = some (.mdUpdate (zeros 255) []) := by
  simp [decode, decodeFrame, decodeCommand, decodeMdUpdate, Except.toOption, zeros_length, List.take_of_length_le, List.drop_eq_nil_of_le]

theorem witness_LegalFramesDecode :
    LegalFrame ⟨0x01, [3, 0, 0, 0, 0, 0, 0, 0, 1, 9]⟩ ∧ LegalFrame ⟨0x02, []⟩ ∧ LegalFrame ⟨0x11, [0, 0xFF]⟩ ∧
    LegalFrame ⟨0x12, [0, 0, 0, 0, 0, 0, 0xFF]⟩ ∧ LegalFrame ⟨0x13, [1, 2, 5, 6, 7]⟩ := by decide

theorem witness_IllegalFramesAnswerIllegalCommand :
    ({ base with latch := some ⟨0x13, [2, 2, 3, 7, 0]⟩ } : State).turn = .main ∧
    ({ base with latch := some ⟨0x13, [2, 2, 3, 7, 0]⟩ } : State).popTurn.issue.latch = some ⟨0x13, [2, 2, 3, 7, 0]⟩ ∧
    ¬ LegalFrame ⟨0x13, [2, 2, 3, 7, 0]⟩ ∧ ¬ LegalFrame ⟨0x14, []⟩ ∧ ¬ LegalFrame ⟨0x00, []⟩ ∧ ¬ LegalFrame ⟨0x21, [2, 1]⟩ ∧
    ¬ LegalFrame ⟨0x01, [0, 1, 0, 0, 0, 0, 0, 0]⟩ := by decide

/-- The clauses: a frame in the latch, a frame to issue, nothing to issue. -/
theorem witness_StepRunsLatchedCommand :
    scan.turn = .main ∧ scan.popTurn.issue.latch = some ⟨0x02, []⟩ ∧
    (decodeFrame .command ⟨0x02, []⟩).toOption = some .ksPoll ∧ scan.latch = some ⟨0x02, []⟩ ∧
    ({ base with cmds := [⟨0x02, []⟩] } : State).latch = none ∧
    ({ base with cmds := [⟨0x02, []⟩] } : State).cmds = ⟨0x02, []⟩ :: [] ∧
    base.turn = .main ∧ base.latch = none ∧ base.cmds = [] := by decide

theorem witness_StepTakesPendingTick :
    (strobe lit).turn = .tick ∧ (strobe lit).tickPending = true ∧ (strobe lit).masked = false := by decide

theorem witness_MaskedTickHasNoStep :
    ({ strobe lit with masked := true, sched := [.tick] } : State).turn = .tick ∧
    ({ strobe lit with masked := true, sched := [.tick] } : State).masked = true ∧
    ({ lit with sched := [.tick] } : State).turn = .tick ∧ ({ lit with sched := [.tick] } : State).tickPending = false := by
  decide

theorem witness_StrobesCoalesce : ({ lit with sched := [.strobe] } : State).turn = .strobe ∧ lit.masked = false ∧
    (nextOf (tickStep (strobe (strobe lit)))).isSome = true := by decide

theorem witness_ResetTurnResetsRegisters :
    ({ scan with sched := [.reset true] } : State).turn = .reset true ∧
    ({ scan with sched := [.reset false] } : State).turn = .reset false := by decide

theorem witness_UnconfiguredAnswers :
    base.ks.configured = false ∧ base.ks.phase = .idle ∧ base.md.configured = false ∧ base.md.uphase = .idle ∧
    base.md.maskedDue = false ∧ base.inTick = false := by decide

theorem witness_OverlapIffSharedPin : 0 < (1 : Nat) ∧ overlap ⟨0x25, 4⟩ 1 ⟨0x25, 4⟩ 1 = true := by decide

/-! ### Pins and faults -/

theorem witness_PinPrimitives :
    both.conflict .ks 0x25 0 = false ∧ both.conflict .md 0x2B 3 = false ∧ both.conflict .ks 0x25 7 = false ∧
    ∀ p < 8, (0xF0 : Byte).getLsbD p = true → both.conflict .ks 0x25 p = false := by decide

/-- KS rebound over MD's pins: lines on the select port, columns on the data port. -/
def clash : State :=
  { lit with ks := { both.ks with lineGrp := ⟨0x002B, 0⟩, colGrp := ⟨0x0028, 4⟩ } }

/-- `clash` in a scan phase. -/
def clashAt (p : Phase) : State := { clash with ks := { clash.ks with phase := p } }

theorem witness_PinConflictFaults :
    lit.conflict .ks 0x0028 7 = true ∧ (0x80 : Byte).getLsbD 7 = true ∧ clash.conflict .md 0x002B 2 = true ∧
    (clashAt (.drive 2)).inTick = false ∧ (clashAt (.drive 2)).ks.phase = .drive 2 ∧
    (clashAt (.drive 2)).mdBound (clashAt (.drive 2)).ks.lineGrp.base ((clashAt (.drive 2)).linePin 2) = true ∧
    (clashAt (.drive 3)).mdBound (clashAt (.drive 3)).ks.lineGrp.base ((clashAt (.drive 3)).linePin 3) = true ∧
    (clashAt (.sample 0 3)).ks.phase = .sample 0 3 ∧
    (clashAt (.sample 0 3)).mdBound (clashAt (.sample 0 3)).ks.colGrp.base ((clashAt (.sample 0 3)).colPin 3) = true ∧
    (clashAt (.release 2)).ks.phase = .release 2 ∧
    (clashAt (.release 2)).mdBound (clashAt (.release 2)).ks.lineGrp.base ((clashAt (.release 2)).linePin 2) = true ∧
    (enterTick clash).inTick = true ∧ (enterTick clash).md.configured = true ∧ (enterTick clash).md.portsSet = true ∧
    (enterTick clash).md.activeDigit = some 0 ∧
    (enterTick clash).ksBound (enterTick clash).md.ctrlGrp.base ((enterTick clash).selectPin 0) = true := by decide

/-- A configured keypad and an unbound display. -/
def keypadUnbound : State := nx (exec (fa 2) unbound)

/-- First clause: a line on the data port (pin 7 of it), a column on a select pin. Second: data over the lines, a select
line over a column. -/
theorem witness_BindingASharedPinFaults :
    (lit.inTick = false ∧
      (ksValidate lit.params 0 1 ⟨0x0028, 4⟩ ⟨0x0025, 0⟩ mapA).toOption = some .g4x4 ∧
      (boundGroup ⟨0x0028, 4⟩).has 4 0x0028 7 = true ∧ lit.mdBound 0x0028 7 = true) ∧
    ((ksValidate lit.params 0 1 ⟨0x0025, 0⟩ ⟨0x002B, 3⟩ mapA).toOption = some .g4x4 ∧
      (boundGroup ⟨0x002B, 3⟩).has 4 0x002B 3 = true ∧ lit.mdBound 0x002B 3 = true) ∧
    (keypadUnbound.inTick = false ∧
      (portsValidate keypadUnbound.params keypadUnbound.md ⟨0x0025, 0⟩ ⟨0x002B, 2⟩ 1).toOption = some .high ∧
      (boundGroup ⟨0x0025, 0⟩).has 8 0x0025 0 = true ∧ keypadUnbound.ksBound 0x0025 0 = true) ∧
    ((portsValidate keypadUnbound.params keypadUnbound.md ⟨0x0028, 0⟩ ⟨0x0025, 6⟩ 0).toOption = some .low ∧
      (boundGroup ⟨0x0025, 6⟩).has keypadUnbound.md.n 0x0025 7 = true ∧ keypadUnbound.ksBound 0x0025 7 = true) := by decide

theorem witness_RamAccess :
    ({ both with ks := { both.ks with phase := .decide, hit := some 16 } } : State).ks.hit = some 16 ∧
    both.inTick = false ∧ (updateAt (.write 8)).md.uphase = .write 8 ∧ (updateAt (.write 8)).md.maskedDue = false ∧
    (15 < 16 ∧ 7 < 8) ∧
    (enterTick { display with md := { display.md with idx := 8 } }).md.activeDigit = none ∧
    (enterTick { display with md := { display.md with idx := 8 } }).md.portsSet = true := by decide

/-! ### KS -/

/-- FA on both units' state, and KC12 with K = 255 and the last pin of the port. -/
theorem witness_KsConfigureSucceeds :
    lit.inTick = false ∧ geometryOf 0 = some .g4x4 ∧ mapA.length = 4 * 4 ∧ (2 : Byte) ≠ 0 ∧
    usable lit.params ⟨0x0025, 0⟩ 4 = true ∧ usable lit.params ⟨0x0025, 4⟩ 4 = true ∧
    overlap (boundGroup ⟨0x0025, 0⟩) 4 (boundGroup ⟨0x0025, 4⟩) 4 = false ∧
    (∀ i < 4, lit.mdBound 0x0025 ((boundGroup ⟨0x0025, 0⟩).first.toNat + i) = false) ∧
    (∀ j < 4, lit.mdBound 0x0025 ((boundGroup ⟨0x0025, 4⟩).first.toNat + j) = false) ∧
    geometryOf 2 = some .g5x3 ∧ usable base.params ⟨0x0025, 0⟩ 5 = true ∧ usable base.params ⟨0x0025, 5⟩ 3 = true ∧
    overlap (boundGroup ⟨0x0025, 0⟩) 5 (boundGroup ⟨0x0025, 5⟩) 3 = false := by decide

/-- KC1, KC2 and KC3, KC4, KC5, KC8, KC9. -/
theorem witness_KsConfigureErrors :
    base.inTick = false ∧ 2 < (3 : Byte).toNat ∧
    geometryOf 1 = some .g4x3 ∧ mapA.length ≠ Geometry.lines .g4x3 * Geometry.cols .g4x3 ∧
    ([] : List Byte).length ≠ Geometry.lines .g4x4 * Geometry.cols .g4x4 ∧
    mapA.length = Geometry.lines .g4x4 * Geometry.cols .g4x4 ∧ (0 : Byte) = 0 ∧ (1 : Byte) ≠ 0 ∧
    usable base.params ⟨0x0000, 0⟩ 4 = false ∧ usable base.params ⟨0x0028, 0x0C⟩ 4 = false ∧
    overlap (boundGroup ⟨0x0025, 0⟩) 4 (boundGroup ⟨0x0025, 3⟩) 4 = true := by decide

theorem witness_PollEntry :
    base.inTick = false ∧ base.ks.phase = .idle ∧ base.ks.configured = false ∧
    scan.inTick = false ∧ scan.ks.phase = .idle ∧ scan.ks.configured = true := by decide

theorem witness_PollDrivesLine :
    (nextOf (exec .ksPoll (scanAt 1))).isSome = true ∧
    (scanAt 1).inTick = false ∧ (scanAt 1).ks.phase = .drive 0 ∧
    (scanAt 1).mdBound (scanAt 1).ks.lineGrp.base ((scanAt 1).linePin 0) = false ∧
    (scanAt 22).ks.phase = .drive 3 ∧ (scanAt 22).mdBound (scanAt 22).ks.lineGrp.base ((scanAt 22).linePin 3) = false := by
  decide

theorem witness_PollSettles : (scanAt 2).inTick = false ∧ (scanAt 2).ks.phase = .settle 0 := by decide

theorem witness_PollSamplesColumn :
    (scanAt 11).inTick = false ∧ (scanAt 11).ks.phase = .sample 1 1 ∧
    (scanAt 11).mdBound (scanAt 11).ks.colGrp.base ((scanAt 11).colPin 1) = false ∧
    (scanAt 11).drawAt 0 (scanAt 11).ks.colGrp.base ((scanAt 11).colPin 1) = .low := by decide

theorem witness_PollReleasesLine :
    (nextOf (exec .ksPoll (scanAt 28))).isSome = true ∧
    (scanAt 28).inTick = false ∧ (scanAt 28).ks.phase = .release 3 ∧
    (scanAt 28).mdBound (scanAt 28).ks.lineGrp.base ((scanAt 28).linePin 3) = false := by decide

/-- No hit; the last raw index; and a match at K under both report modes. -/
theorem witness_PollDecides :
    (scanAt 29).inTick = false ∧ (scanAt 29).ks.phase = .decide ∧ (scanAt 29).ks.hit = some 5 ∧
    (scanAt 29).keyMapRead 5 = some 5 ∧ (scanAt 29).ks.cand = 0xFF ∧ (scanAt 29).ks.k = 2 ∧
    (1 : Nat) = (if (5 : Byte) = (scanAt 29).ks.cand
      then (if (scanAt 29).ks.cnt < (scanAt 29).ks.k then (scanAt 29).ks.cnt + 1 else (scanAt 29).ks.cnt) else 1) ∧
    (scanAt 29).params.reportMode = .edge ∧
    (0xFF : Byte) = (if (5 : Byte) ≠ 0xFF ∧ ((5 : Byte) = (scanAt 29).ks.cand → (scanAt 29).ks.cnt < (scanAt 29).ks.k) ∧
      (1 : Nat) = (scanAt 29).ks.k then 5 else 0xFF) ∧
    (scanAt 29).keyMapRead 15 = some 13 := by decide

theorem witness_PollRunsFullScan : scan.Inv ∧ scan.ks.configured = true ∧ scan.ks.phase = .idle ∧
    scan.latch = some (encodeFrame .ksPoll) := ⟨inv_scan, by decide, by decide, by decide⟩

theorem witness_IdleMatrixAnswersNoKey : scan5.Inv ∧ scan5.ks.configured = true ∧ scan5.ks.phase = .idle ∧
    ∀ l < scan5.ks.lines, ∀ c < scan5.ks.cols, scan5.readLevel l c = inactiveKp scan5.params :=
  ⟨inv_scan5, by decide, by decide, by decide⟩

theorem witness_DebounceLaw : both.Inv ∧ both.ks.configured = true ∧ both.ks.phase = .idle ∧ both.ks.cand = 0xFF ∧
    both.ks.cnt = 0 ∧ both.params.reportMode = .edge ∧
    (let held : State := { both with params := { both.params with reportMode := .held } }
     held.KsInv ∧ held.params.reportMode = .held) :=
  ⟨inv_both, by decide, by decide, by decide, by decide, by decide, by decide⟩

/-- An interleaving with two ticks inside a poll. -/
def mixed : List Turn := [.main, .strobe, .tick, .main, .main, .strobe, .main, .tick, .main]

theorem witness_TicksDoNotDisturbMain : scan.Inv ∧ (∀ x ∈ mixed, x.running = true) ∧
    (nextOf (runTurns mixed scan)).isSome = true := ⟨inv_scan, by decide, by decide⟩

/-! ### MD -/

theorem both_lit : both.md.activeDigit = some 0 := by decide

/-- No select pin of `both` is a keypad pin. -/
theorem both_select_free (a : Nat) (h : both.md.activeDigit = some a) :
    both.ksBound both.md.ctrlGrp.base (both.selectPin a) = false := by
  rw [both_lit] at h
  cases h
  decide

theorem witness_MdConfigureSucceeds : both.inTick = false ∧ 2 ≤ (8 : Byte).toNat ∧ (8 : Byte).toNat ≤ 8 ∧
    2 ≤ (2 : Byte).toNat ∧ polarityOf 1 = some .ca ∧ polarityOf 0 = some .cc ∧
    (∀ a, both.md.portsSet = true → both.md.activeDigit = some a →
      both.ksBound both.md.ctrlGrp.base (both.selectPin a) = false) :=
  ⟨by decide, by decide, by decide, by decide, by decide, by decide, fun a _ h => both_select_free a h⟩

theorem witness_MdConfigureErrors : base.inTick = false ∧ (1 : Byte).toNat < 2 ∧ 8 < (9 : Byte).toNat ∧
    2 ≤ (2 : Byte).toNat ∧ (2 : Byte).toNat ≤ 8 ∧ 1 < (2 : Byte).toNat := by decide

/-- MS11's rebinding, on a lit display beside a configured keypad. -/
theorem witness_MdSetPortsSucceeds : both.inTick = false ∧ both.md.configured = true ∧ activeLevelOf 1 = some .high ∧
    usable both.params ⟨0x0028, 0⟩ 8 = true ∧ usable both.params ⟨0x002B, 6⟩ both.md.n = true ∧
    overlap (boundGroup ⟨0x0028, 0⟩) 8 (boundGroup ⟨0x002B, 6⟩) both.md.n = false ∧
    (∀ a, both.md.portsSet = true → both.md.activeDigit = some a →
      both.ksBound both.md.ctrlGrp.base (both.selectPin a) = false) ∧
    (∀ b < 8, both.ksBound 0x0028 ((boundGroup ⟨0x0028, 0⟩).first.toNat + b) = false) ∧
    (∀ d < both.md.n, both.ksBound 0x002B ((boundGroup ⟨0x002B, 6⟩).first.toNat + d) = false) :=
  ⟨by decide, by decide, by decide, by decide, by decide, by decide, fun a _ h => both_select_free a h, by decide, by decide⟩

/-- MS1, MS2, MS3, MS4, MS6. -/
theorem witness_MdSetPortsErrors : base.inTick = false ∧ base.md.configured = false ∧ unbound.inTick = false ∧
    unbound.md.configured = true ∧ 1 < (2 : Byte).toNat ∧ (1 : Byte).toNat ≤ 1 ∧
    usable unbound.params ⟨0x0028, 1⟩ 8 = false ∧ usable unbound.params ⟨0x002B, 7⟩ unbound.md.n = false ∧
    overlap (boundGroup ⟨0x0028, 0⟩) 8 (boundGroup ⟨0x0028, 0⟩) unbound.md.n = true := by decide

theorem witness_UpdateEntry : updating.inTick = false ∧ updating.md.uphase = .idle ∧ updating.md.maskedDue = false ∧
    updating.md.configured = true ∧ ([3, 7] : List Byte).length = updating.md.n ∧ updating.params.cdcScheme = .swap ∧
    updatingMask.params.cdcScheme = .mask ∧ updatingMask.md.n = 2 ∧
    ([3] : List Byte).length ≠ updating.md.n ∧ base.md.configured = false := by decide

theorem witness_UpdateWritesShadowEntry : (updateAt (.write 1)).inTick = false ∧ (updateAt (.write 1)).md.maskedDue = false ∧
    (updateAt (.write 1)).md.uphase = .write 1 ∧ (updateAt (.write 7)).md.uphase = .write 7 ∧ 7 < 8 ∧
    ([3, 7] : List Byte)[1]? = some 7 ∧ (List.replicate 8 (8 : Byte))[7]? = some 8 := by decide

theorem witness_UpdateCommits : (updateAt .commit).inTick = false ∧ (updateAt .commit).md.maskedDue = false ∧
    (updateAt .commit).md.uphase = .commit := by decide

theorem witness_UpdateCopiesUnderMask :
    (setMaskedDue true updatingMask).inTick = false ∧ (setMaskedDue true updatingMask).md.maskedDue = true ∧
    ([3, 7] : List Byte).length = (setMaskedDue true updatingMask).md.n ∧
    ([0, 1] : List Byte).length = (setMaskedDue true updatingMask).md.n ∧ (setMaskedDue true updatingMask).md.n ≤ 8 := by decide

/-- P3's interleaving up to the commit, a shorter one, and both under MASK. -/
theorem witness_UpdateIsAtomic :
    updating.Inv ∧ updating.latch = some (encodeFrame (.mdUpdate [3, 7] [0, 1])) ∧ updating.md.configured = true ∧
    updating.updating = false ∧ ([3, 7] : List Byte).length = updating.md.n ∧ ([0, 1] : List Byte).length = updating.md.n ∧
    (nextOf (runTurns [.main, .main, .strobe, .tick, .main, .strobe, .tick, .main, .strobe, .tick] updating)).isSome = true ∧
    (mainOnly [.main, .main, .strobe, .tick, .main, .strobe, .tick, .main, .strobe, .tick]).length = updating.md.n + 2 ∧
    (nextOf (runTurns [.main, .main, .strobe, .tick] updating)).isSome = true ∧
    (updatingMask.Inv ∧ updatingMask.params.cdcScheme = .mask ∧
      (nextOf (runTurns [.main, .strobe, .tick, .main] updatingMask)).isSome = true) :=
  ⟨inv_updating, by decide, by decide, by decide, by decide, by decide, by decide, by decide, by decide,
    inv_updatingMask, by decide, by decide⟩

theorem witness_AdvanceNeverReports : (enterTick base).inTick = true ∧ (enterTick base).md.configured = false ∧
    (enterTick unbound).inTick = true ∧ (enterTick unbound).md.portsSet = false := by decide

/-- On the lit display beside a configured keypad, the digit shown next is the last one. -/
theorem witness_AdvanceRefreshesDigit :
    (enterTick both).inTick = true ∧ (enterTick both).md.configured = true ∧ (enterTick both).md.portsSet = true ∧
    (enterTick both).md.idx = 1 ∧ (enterTick both).md.n = 2 ∧
    ((enterTick both).activeEntry 1).map Entry.ofByte = some ⟨0, false⟩ ∧
    overlap (enterTick both).md.dataGrp 8 (enterTick both).md.ctrlGrp (enterTick both).md.n = false ∧
    (enterTick both).md.activeDigit = some 0 ∧
    (∀ b < 8, (enterTick both).ksBound (enterTick both).md.dataGrp.base ((enterTick both).dataPin b) = false) ∧
    (∀ d < (enterTick both).md.n, (enterTick both).ksBound (enterTick both).md.ctrlGrp.base ((enterTick both).selectPin d)
      = false) := by decide

/-- The three counts: unbound, no lit digit, a lit digit. -/
theorem witness_AdvanceEventCount :
    (nextOf (exec .mdAdvance (enterTick unbound))).isSome = true ∧ display.md.activeDigit = none ∧
    (nextOf (exec .mdAdvance (enterTick display))).isSome = true ∧
    (nextOf (exec .mdAdvance (enterTick both))).isSome = true := by decide

theorem witness_RefreshesGoRound : both.Inv ∧ both.md.portsSet = true := ⟨inv_both, by decide⟩

theorem witness_BreakBeforeMake : lit.Inv ∧ lit.md.portsSet = true ∧ deselectEvents lit.md = [.write 0x2B 2 .low] :=
  ⟨inv_lit, by decide, by decide⟩

/-! ### Contexts, frames and invariants -/

theorem witness_ContextMisuseIsRefused : base.inTick = false ∧ (enterTick base).inTick = true ∧
    Instr.port .ksPoll = .command := by decide

theorem witness_TickChangesNoMainState : (strobe scan).tickReady = true ∧
    (nextOf (runTurn .tick (strobe (scanAt 10)))).isSome = true := by decide

/-- Every command answers a next state somewhere. -/
theorem witness_CommandsWriteOnlyTheirRegisters :
    ([fa 2, .ksPoll, .mdConfigure 4 0, ms9, .mdUpdate [3, 7] [0, 1]].all fun i => (nextOf (exec i both)).isSome) = true ∧
    (nextOf (exec .mdAdvance (enterTick both))).isSome = true := by decide

theorem witness_ErrorsChangeNothing :
    (nextOf (exec (.mdConfigure 2 2) both)).isSome = true ∧
    responses (nx (exec (.mdConfigure 2 2) both)).trace = responses both.trace ++ [(.invalidArgument, 0x00)] ∧
    Result.invalidArgument ≠ .ok := by decide

theorem witness_StepKeepsInv : (scanAt 12).Inv ∧ (nextOf (step (scanAt 12))).isSome = true := ⟨inv_scan_middle.1, by decide⟩

/-- Both alternatives: a step, and a KS_CONFIGURE that takes a data pin. -/
theorem witness_OnlyBindingCommandsStop : lit.Inv ∧ (nextOf (step lit)).isSome = true ∧
    step { lit with latch := some (encodeFrame (.ksConfigure 0 1 ⟨0x0028, 4⟩ ⟨0x0025, 0⟩ mapA)) } = .fault .pinConflict ∧
    (lit.turn = .main) := ⟨inv_lit, by decide, by rfl, by decide⟩

/-- The longest command, one in its middle, and its last micro-step. -/
theorem witness_CommandsComplete : scan5.Inv ∧ scan5.latch = some (encodeFrame .ksPoll) ∧
    (nextOf (runTurn .main scan5)).isSome = true ∧ scan5.microStepsLeft = 32 ∧
    (scanAt 11).microStepsLeft = 19 ∧ (scanAt 29).microStepsLeft = 1 ∧ (nextOf (runTurn .main (scanAt 29))).isSome = true :=
  ⟨inv_scan5, by decide, by decide, by decide, by decide, by decide, by decide⟩

/-- The lit display with a KS_CONFIGURE in flight that takes data pins. -/
def conflicting : State := { lit with latch := some (encodeFrame (.ksConfigure 0 1 ⟨0x0028, 4⟩ ⟨0x0025, 0⟩ mapA)) }

theorem inv_conflicting : conflicting.Inv :=
  ⟨by decide, by decide, by decide, by decide, by decide, by decide, by decide⟩

/-- The second clause's two alternatives: a whole 5×3 poll, and a KS_CONFIGURE that takes a data pin. -/
theorem witness_CommandsComplete_run :
    (nextOf (runTurns (List.replicate scan5.microStepsLeft .main) scan5)).map (fun t => (t.latch, (responses t.trace).length)) =
      some (none, (responses scan5.trace).length + 1) ∧
    runTurns (List.replicate conflicting.microStepsLeft .main) conflicting = .fault .pinConflict := ⟨by decide, by rfl⟩

theorem witness_PendingTickIsTaken : (strobe { both with sched := [.main, .strobe, .main] }).Inv ∧
    (strobe { both with sched := [.main, .strobe, .main] }).tickPending = true ∧
    (∀ x ∈ (strobe { both with sched := [.main, .strobe, .main] }).sched, x.running = true) :=
  ⟨⟨by decide, by decide, by decide, by decide, by decide, by decide, by decide⟩, by decide, by decide⟩

theorem witness_ReadsOnlyInputColumns : (scanAt 12).Inv ∧ (nextOf (step (scanAt 12))).isSome = true ∧
    .read 0x0025 6 .high ∈ (nx (step (scanAt 12))).trace.drop (scanAt 12).trace.length :=
  ⟨inv_scan_middle.1, by decide, by decide⟩

theorem witness_TraceOnlyGrows : (nextOf (step scan)).isSome = true := by decide

end Sys2Proof.Tests
end

section
/-! SUPPORT. The state right after reset (R40) and the operand codes (R23, R91): what reads of stores that list nothing
answer, and each code table by the code's number. -/

namespace Sys2Proof.Machine

/-! ### Reads of stores that list nothing -/

/-- Every entry of a key map that lists no byte reads 0x00. -/
theorem keyMapRead_of_keyMap_nil {s : State} (h : s.ks.keyMap = []) {i : Nat} (hi : i < 16) :
    s.keyMapRead i = some 0x00 := by
  simp [State.keyMapRead, Config.keyMapSize, hi, h]

/-- The byte 0x00 of the digit-buffer RAM is the blank entry. -/
@[simp] theorem Entry.ofByte_zero : Entry.ofByte 0x00 = ⟨0, false⟩ := by decide

/-- Every position of digit buffers that list no byte holds the blank entry. -/
theorem bufRead_of_buf_nil {s : State} (h : s.md.buf = []) (b : Bool) {d : Nat} (hd : d < 8) :
    (s.bufRead b d).map Entry.ofByte = some ⟨0, false⟩ := by
  have hread : s.bufRead b d = some 0x00 := by simp [State.bufRead, Config.maxDigits, hd, h]
  rw [hread, Option.map_some, Entry.ofByte_zero]

/-- A pin no direction is listed for has the direction of GPIO_INIT (R36). -/
theorem pinDir_of_dirs_nil {s : State} (h : s.dirs = []) (base : PortBase) (pin : Nat) :
    s.pinDir base pin = Config.gpioInitDir base pin := by
  simp [State.pinDir, h]

/-- A pin no output level is listed for has the output latch of GPIO_INIT (R36). -/
theorem pinOut_of_outs_nil {s : State} (h : s.outs = []) (base : PortBase) (pin : Nat) :
    s.pinOut base pin = Config.gpioInitOut base pin := by
  simp [State.pinOut, h]

/-! ### Operand codes -/

/-- GEOM's codes by number (R85). -/
theorem geometryOf_eq (c : Byte) :
    geometryOf c = if c.toNat = 0 then some .g4x4 else if c.toNat = 1 then some .g4x3
      else if c.toNat = 2 then some .g5x3 else none := by
  simp [geometryOf, BitVec.toNat_eq]

/-- POL's codes by number (R87). -/
theorem polarityOf_eq (c : Byte) :
    polarityOf c = if c.toNat = 0 then some .cc else if c.toNat = 1 then some .ca else none := by
  simp [polarityOf, BitVec.toNat_eq]

/-- ACT's codes by number (R88). -/
theorem activeLevelOf_eq (c : Byte) :
    activeLevelOf c = if c.toNat = 0 then some .low else if c.toNat = 1 then some .high else none := by
  simp [activeLevelOf, BitVec.toNat_eq]

/-- The lines and columns a GEOM code names (R23). -/
theorem geometryOf_map_lines_cols (c : Byte) :
    (geometryOf c).map (fun g => (g.lines, g.cols)) =
      if c.toNat = 0 then some (4, 4) else if c.toNat = 1 then some (4, 3)
        else if c.toNat = 2 then some (5, 3) else none := by
  simp only [geometryOf_eq, apply_ite (Option.map _), Option.map_some, Option.map_none, Geometry.lines, Geometry.cols]

@[simp] theorem Level.inv_eq_high (lv : Level) : lv.inv = .high ↔ lv = .low := by
  cases lv <;> simp [Level.inv]

/-! ### The obligations -/

/-- Settles O11: the registers by the reset state's definition; the two RAMs and the pins because their stores list nothing. -/
theorem resetValues : Obligations.ResetValues := by
  have hkeyMap : ∀ i < 16, State.reset.keyMapRead i = some 0x00 := fun _ hi => keyMapRead_of_keyMap_nil rfl hi
  have hbuf : ∀ b, ∀ d < 8, (State.reset.bufRead b d).map Entry.ofByte = some ⟨0, false⟩ :=
    fun b _ hd => bufRead_of_buf_nil rfl b hd
  have hpins : ∀ base pin, State.reset.pinDir base pin = Config.gpioInitDir base pin ∧
      State.reset.pinOut base pin = Config.gpioInitOut base pin :=
    fun base pin => ⟨pinDir_of_dirs_nil rfl base pin, pinOut_of_outs_nil rfl base pin⟩
  exact
    ⟨rfl, rfl, rfl, rfl, rfl, rfl, rfl, hkeyMap, rfl, rfl, rfl, rfl,
     rfl, rfl, rfl, rfl, rfl, rfl, rfl, hbuf, rfl, rfl, rfl, rfl,
     rfl, rfl, rfl, hpins⟩

/-- Settles O13, from the code tables by number. -/
theorem operandCodes : Obligations.OperandCodes :=
  ⟨fun _ => ⟨rfl, rfl⟩, geometryOf_map_lines_cols, polarityOf_eq, activeLevelOf_eq,
    fun p => Level.inv_eq_high p.kpActive, rfl, rfl⟩

end Sys2Proof.Machine
end

section
/-! SUPPORT. Pins and RAMs (R62, R64, R66): what the primitives do and leave unchanged, a RAM access past the end as a fault,
and which commands keep the two RAMs. -/

namespace Sys2Proof.Machine

/-! ### Group usability -/

/-- Bits 7:3 of a first-pin byte are 0 exactly if the byte is below 8. -/
theorem extractLsb'_3_5_eq_zero_iff (b : Byte) : b.extractLsb' 3 5 = 0 ↔ b.toNat < 8 := by
  have hb := b.isLt
  rw [← BitVec.toNat_inj, BitVec.extractLsb'_toNat, Nat.shiftRight_eq_div_pow]
  show b.toNat / 2 ^ 3 % 2 ^ 5 = 0 ↔ _
  omega

/-- VALID_PORT by membership in the admitted bases. -/
theorem validPort_iff (p : Params) (base : PortBase) : validPort p base = true ↔ base ≠ 0 ∧ base ∈ p.validPorts := by
  simp [validPort]

/-- Settles O14: bits 2:0 of a first-pin byte below 8 are the whole byte. -/
theorem usableIffAdmittedAndFits : Obligations.UsableIffAdmittedAndFits := by
  intro p g n
  have hfits (h : g.first.toNat < 8) : (g.first.extractLsb' 0 3).toNat = g.first.toNat := by
    rw [BitVec.extractLsb'_toNat, Nat.shiftRight_zero]
    exact Nat.mod_eq_of_lt h
  simp only [usable, Bool.and_eq_true, decide_eq_true_eq, validPort_iff, extractLsb'_3_5_eq_zero_iff]
  constructor
  · rintro ⟨⟨⟨hbase, -, hadm⟩, hfirst⟩, hn⟩
    exact ⟨hbase, hadm, hfirst, hfits hfirst ▸ hn⟩
  · rintro ⟨hbase, hadm, hfirst, hn⟩
    exact ⟨⟨⟨hbase, hbase, hadm⟩, hfirst⟩, (hfits hfirst).symm ▸ hn⟩

/-! ### Pin primitives -/

/-- Writing a value where it already stands changes nothing, in any store: the second write reaches the cell of the first. -/
theorem Cells.put_put {α : Type} (m : Cells α) (k : Nat) (v : α) :
    Cells.put (Cells.put m k v) k v = Cells.put m k v := by
  induction m with
  | nil => simp [Cells.put]
  | cons c rest ih =>
    obtain ⟨a, w⟩ := c
    rcases Nat.lt_trichotomy k a with hlt | rfl | hgt
    · simp [Cells.put, hlt]
    · simp [Cells.put]
    · simp [Cells.put, hgt.not_gt, hgt.ne', ih]

/-- The directions after a direction write. -/
theorem gpioSetDir_pinDir {u : Owner} {base : PortBase} {mask dirs : Byte} {s t : State}
    (h : gpioSetDir u base mask dirs s = .next t) (b : PortBase) (p : Nat) :
    t.pinDir b p =
      if b = base ∧ p < 8 ∧ mask.getLsbD p = true then Level.ofBit (dirs.getLsbD p) else s.pinDir b p := by
  obtain ⟨-, rfl⟩ := gpioSetDir_eq_next.mp h
  simp only [State.pinDir, putDirs_get?, mem_maskPins]
  split <;> simp

/-- A pin write on a free pin, and the same write once more. -/
theorem gpioWrite_spec (u : Owner) (base : PortBase) (pin : Nat) (lv : Level) (s : State)
    (hfree : s.conflict u base pin = false) :
    ∃ t, gpioWrite u base pin lv s = .next t ∧
      t = { s with outs := t.outs, trace := s.trace ++ [.write base pin lv] } ∧
      (∀ b p, t.pinOut b p = if b = base ∧ p = pin then lv else s.pinOut b p) ∧
      ∃ r, gpioWrite u base pin lv t = .next r ∧ r.outs = t.outs := by
  have hwrite := (gpioWrite_eq_next (lv := lv)).mpr ⟨hfree, rfl⟩
  refine ⟨_, hwrite, rfl, gpioWrite_pinOut hwrite, _,
    gpioWrite_eq_next.mpr ⟨(conflict_congr rfl rfl base pin).trans hfree, rfl⟩, ?_⟩
  exact Cells.put_put s.outs (pinKey base pin) lv

/-- A direction write on free pins, and the same write once more. -/
theorem gpioSetDir_spec (u : Owner) (base : PortBase) (mask dirs : Byte) (s : State)
    (hfree : ∀ p < 8, mask.getLsbD p = true → s.conflict u base p = false) :
    ∃ t, gpioSetDir u base mask dirs s = .next t ∧
      t = { s with dirs := t.dirs, trace := s.trace ++ [.setDir base mask (dirs &&& mask)] } ∧
      (∀ b p, t.pinDir b p =
        if b = base ∧ p < 8 ∧ mask.getLsbD p = true then Level.ofBit (dirs.getLsbD p) else s.pinDir b p) ∧
      ∃ r, gpioSetDir u base mask dirs t = .next r ∧ ∀ b p, r.pinDir b p = t.pinDir b p := by
  have hset := (gpioSetDir_eq_next (dirs := dirs)).mpr ⟨hfree, rfl⟩
  refine ⟨_, hset, rfl, gpioSetDir_pinDir hset, _, gpioSetDir_eq_next.mpr
    ⟨fun p hp hm => (conflict_congr rfl rfl base p).trans (hfree p hp hm), rfl⟩, fun b p => ?_⟩
  simp only [State.pinDir, putDirs_get?]
  split <;> rfl

/-- A read of a free pin where ENV's next answer is `lv`. -/
theorem gpioRead_cons_draws {u : Owner} {base : PortBase} {pin : Nat} (lv : Level) {s : State}
    (hfree : s.conflict u base pin = false) :
    gpioRead u base pin { s with draws := lv :: s.draws } =
      .next { s with drawn := s.drawn + 1, trace := s.trace ++ [.read base pin lv] } :=
  gpioRead_eq_next.mpr ⟨(conflict_congr rfl rfl base pin).trans hfree, rfl⟩

/-- Settles O17, a primitive at a time. -/
theorem pinPrimitives : Obligations.PinPrimitives :=
  ⟨gpioWrite_spec, gpioSetDir_spec, fun _ _ _ lv _ hfree => gpioRead_cons_draws lv hfree⟩

/-! ### RAM writes inside the array -/

/-- A key-map write inside the array changes the key map alone, and there one entry. -/
theorem keyMapWrite_spec (s : State) (i : Nat) (v : Byte) (hi : i < 16) :
    ∃ t, keyMapWrite i v s = .next t ∧ t = { s with ks := { s.ks with keyMap := t.ks.keyMap } } ∧
      t.keyMapRead i = some v ∧ ∀ j, j ≠ i → t.keyMapRead j = s.keyMapRead j := by
  have hwrite := (keyMapWrite_eq_next (v := v) (s := s)).mpr ⟨hi, rfl⟩
  exact ⟨_, hwrite, rfl, by rw [keyMapRead_write hwrite, if_pos rfl],
    fun j hj => by rw [keyMapRead_write hwrite, if_neg hj]⟩

/-- A digit-buffer write inside a buffer changes the buffers alone, and there one entry. -/
theorem bufWrite_spec (s : State) (b : Bool) (d : Nat) (v : Byte) (hd : d < 8) :
    ∃ t, bufWrite b d v s = .next t ∧ t = { s with md := { s.md with buf := t.md.buf } } ∧
      t.bufRead b d = some v ∧ ∀ b' d', (b' ≠ b ∨ d' ≠ d) → t.bufRead b' d' = s.bufRead b' d' := by
  have hwrite := (bufWrite_eq_next (b := b) (v := v) (s := s)).mpr ⟨hd, rfl⟩
  exact ⟨_, hwrite, rfl, by rw [bufRead_write hwrite, if_pos ⟨rfl, rfl⟩],
    fun b' d' hne => by rw [bufRead_write hwrite, if_neg (not_and_or.mpr hne)]⟩

/-! ### RAM accesses past the end -/

theorem keyMapRead_eq_none {i : Nat} (hi : 16 ≤ i) (s : State) : s.keyMapRead i = none :=
  if_neg (Nat.not_lt.mpr hi)

theorem keyMapWrite_eq_fault {i : Nat} (hi : 16 ≤ i) (v : Byte) (s : State) : keyMapWrite i v s = .fault .ramIndex :=
  if_neg (Nat.not_lt.mpr hi)

theorem bufRead_eq_none {d : Nat} (hd : 8 ≤ d) (b : Bool) (s : State) : s.bufRead b d = none :=
  if_neg (Nat.not_lt.mpr hd)

theorem bufWrite_eq_fault {d : Nat} (hd : 8 ≤ d) (b : Bool) (v : Byte) (s : State) :
    bufWrite b d v s = .fault .ramIndex :=
  if_neg (Nat.not_lt.mpr hd)

/-- An entry past the end of a buffer is a fault, whether or not the latched operands reach that far. -/
theorem writeEntry_eq_fault {i : Nat} (hi : 8 ≤ i) (vals pts : List Byte) (b : Bool) (s : State) :
    writeEntry vals pts b i s = .fault .ramIndex := by
  unfold writeEntry
  split
  · exact bufWrite_eq_fault hi ..
  · rfl

/-- DECIDE faults at a hit past the end of the key map (R66, R120). -/
theorem exec_ksPoll_decide_fault {s : State} {i : Nat} (hctx : s.inTick = false) (hphase : s.ks.phase = .decide)
    (hhit : s.ks.hit = some i) (hi : 16 ≤ i) : exec .ksPoll s = .fault .ramIndex := by
  have hcand : s.candidate = none := by simp [State.candidate, hhit, keyMapRead_eq_none hi]
  simp [exec, execKsPoll, inMain, hctx, hphase, pollDecide, hcand]

/-- WRITE(i) faults at a position past the end of the shadow buffer (R66, R160). -/
theorem exec_mdUpdate_write_fault {s : State} {i : Nat} (vals pts : List Byte) (hctx : s.inTick = false)
    (hmask : s.md.maskedDue = false) (hphase : s.md.uphase = .write i) (hi : 8 ≤ i) :
    exec (.mdUpdate vals pts) s = .fault .ramIndex := by
  simp [exec, execMdUpdate, inMain, hctx, hmask, hphase, updWrite, writeEntry_eq_fault hi]

/-- MD_ADVANCE with no lit digit faults at a position past the end of the active buffer (R66, R164). -/
theorem exec_mdAdvance_fault {s : State} (hctx : s.inTick = true) (hconf : s.md.configured = true)
    (hports : s.md.portsSet = true) (hdark : s.md.activeDigit = none) (hidx : 8 ≤ s.md.idx) :
    exec .mdAdvance s = .fault .ramIndex := by
  simp [exec, execMdAdvance, inTickContext, hctx, hconf, hports, mdRefresh, deselect, hdark, bufRead_eq_none hidx]

/-! ### What an outcome keeps

A small frame calculus: each rule says of one way to build an outcome when it keeps a view of the state, so that a command's
frame follows its definition part by part. -/

/-- The outcome's next state, where there is one, has the same view as `s`. -/
structure Keeps {α : Type} (view : State → α) (s : State) (o : Out) : Prop where
  eq : ∀ t, o = .next t → view t = view s

/-- The registers and RAMs of both units. -/
def State.units (s : State) : Ks × Md := (s.ks, s.md)

/-- The contents of the key map and of the digit buffers. -/
def State.rams (s : State) : Memory × Memory := (s.ks.keyMap, s.md.buf)

section
variable {α : Type} {view : State → α} {s : State}

theorem Keeps.next {t : State} (h : view t = view s) : Keeps view s (.next t) :=
  ⟨fun u hu => (next_inj t u).mp hu ▸ h⟩

theorem Keeps.fault (r : Fault) : Keeps view s (.fault r) := ⟨fun _ h => nomatch h⟩

theorem Keeps.refused (r : Refusal) : Keeps view s (.refused r) := ⟨fun _ h => nomatch h⟩

theorem Keeps.congr {u : State} {o : Out} (h : Keeps view u o) (hu : view u = view s) : Keeps view s o :=
  ⟨fun t ht => (h.eq t ht).trans hu⟩

theorem Keeps.andThen {o : Out} {f : State → Out} (ho : Keeps view s o) (hf : ∀ u, Keeps view u (f u)) :
    Keeps view s (andThen o f) := by
  refine ⟨fun t ht => ?_⟩
  obtain ⟨u, hu, hfu⟩ := andThen_eq_next.mp ht
  exact ((hf u).eq t hfu).trans (ho.eq u hu)

theorem Keeps.inMain {o : Out} (h : Keeps view s o) : Keeps view s (inMain s o) := by
  unfold Machine.inMain
  split
  · exact .refused _
  · exact h

theorem Keeps.inTickContext {o : Out} (h : Keeps view s o) : Keeps view s (inTickContext s o) := by
  unfold Machine.inTickContext
  split
  · exact h
  · exact .refused _

theorem Keeps.ks {o : Out} (h : Keeps State.units s o) : Keeps State.ks s o :=
  ⟨fun t ht => congrArg Prod.fst (h.eq t ht)⟩

theorem Keeps.md {o : Out} (h : Keeps State.units s o) : Keeps State.md s o :=
  ⟨fun t ht => congrArg Prod.snd (h.eq t ht)⟩

theorem Keeps.rams {o : Out} (h : Keeps State.units s o) : Keeps State.rams s o :=
  ⟨fun t ht => Prod.ext (congrArg Ks.keyMap (h.ks.eq t ht)) (congrArg Md.buf (h.md.eq t ht))⟩

end

/-! ### What the pin operations keep -/

theorem gpioWrite_keeps_units (u : Owner) (base : PortBase) (pin : Nat) (lv : Level) (s : State) :
    Keeps State.units s (gpioWrite u base pin lv s) := by
  refine ⟨fun t ht => ?_⟩
  obtain ⟨-, rfl⟩ := gpioWrite_eq_next.mp ht
  rfl

theorem gpioSetDir_keeps_units (u : Owner) (base : PortBase) (mask dirs : Byte) (s : State) :
    Keeps State.units s (gpioSetDir u base mask dirs s) := by
  refine ⟨fun t ht => ?_⟩
  obtain ⟨-, rfl⟩ := gpioSetDir_eq_next.mp ht
  rfl

theorem gpioRead_keeps_units (u : Owner) (base : PortBase) (pin : Nat) (s : State) :
    Keeps State.units s (gpioRead u base pin s) := by
  refine ⟨fun t ht => ?_⟩
  obtain ⟨-, rfl⟩ := gpioRead_eq_next.mp ht
  rfl

theorem gpioWriteRun_keeps_units (u : Owner) (base : PortBase) (pin : Nat) (lvs : List Level) (s : State) :
    Keeps State.units s (gpioWriteRun u base pin lvs s) := by
  induction lvs generalizing pin s with
  | nil => exact .next rfl
  | cons lv rest ih => exact (gpioWrite_keeps_units ..).andThen fun s1 => ih (pin + 1) s1

theorem deselect_keeps_units (s : State) : Keeps State.units s (deselect s) := by
  unfold deselect
  split
  · exact .next rfl
  · exact gpioWrite_keeps_units ..

theorem deselectBound_keeps_units (s : State) : Keeps State.units s (deselectBound s) := by
  unfold deselectBound
  split
  · exact deselect_keeps_units s
  · exact .next rfl

theorem portsInit_keeps_units (s : State) : Keeps State.units s (portsInit s) :=
  (gpioWriteRun_keeps_units ..).andThen fun _ =>
  (gpioSetDir_keeps_units ..).andThen fun _ =>
  (gpioWriteRun_keeps_units ..).andThen fun _ =>
  gpioSetDir_keeps_units ..

theorem ksPinInit_keeps_units (s : State) : Keeps State.units s (ksPinInit s) :=
  (gpioWriteRun_keeps_units ..).andThen fun _ =>
  (gpioSetDir_keeps_units ..).andThen fun _ =>
  (gpioSetDir_keeps_units ..).andThen fun _ =>
  gpioWriteRun_keeps_units ..

/-! ### What the RAM operations keep -/

theorem keyMapWrite_keeps_md (i : Nat) (v : Byte) (s : State) : Keeps State.md s (keyMapWrite i v s) := by
  refine ⟨fun t ht => ?_⟩
  obtain ⟨-, rfl⟩ := keyMapWrite_eq_next.mp ht
  rfl

theorem keyMapLoad_keeps_md (i : Nat) (vs : List Byte) (s : State) : Keeps State.md s (keyMapLoad i vs s) := by
  induction vs generalizing i s with
  | nil => exact .next rfl
  | cons v rest ih => exact (keyMapWrite_keeps_md ..).andThen fun s1 => ih (i + 1) s1

theorem bufWrite_keeps_ks (b : Bool) (d : Nat) (v : Byte) (s : State) : Keeps State.ks s (bufWrite b d v s) := by
  refine ⟨fun t ht => ?_⟩
  obtain ⟨-, rfl⟩ := bufWrite_eq_next.mp ht
  rfl

theorem writeEntry_keeps_ks (vals pts : List Byte) (b : Bool) (i : Nat) (s : State) :
    Keeps State.ks s (writeEntry vals pts b i s) := by
  unfold writeEntry
  split
  · exact bufWrite_keeps_ks ..
  · exact .fault _

theorem writeEntries_keeps_ks (vals pts : List Byte) (b : Bool) (todo i : Nat) (s : State) :
    Keeps State.ks s (writeEntries vals pts b todo i s) := by
  induction todo generalizing i s with
  | zero => exact .next rfl
  | succ n ih => exact (writeEntry_keeps_ks ..).andThen fun s1 => ih (i + 1) s1

/-! ### What the commands keep -/

/-- KS_CONFIGURE leaves everything of MD as it was. -/
theorem execKsConfigure_keeps_md (geom k : Byte) (lines cols : GroupOp) (map : List Byte) (s : State) :
    Keeps State.md s (execKsConfigure geom k lines cols map s) := by
  refine Keeps.inMain ?_
  split
  · exact .next rfl
  · next g _ =>
    have hload : Keeps State.md s (keyMapLoad 0 map (ksCommitRegs g k lines cols s)) :=
      (keyMapLoad_keeps_md ..).congr rfl
    exact hload.andThen fun s1 => (ksPinInit_keeps_units s1).md.andThen fun _ => .next rfl

/-- No micro-step of KS_POLL writes a RAM. -/
theorem execKsPoll_keeps_rams (s : State) : Keeps State.rams s (execKsPoll s) := by
  refine Keeps.inMain ?_
  cases s.ks.phase with
  | idle =>
    show Keeps _ _ (pollEntry s)
    unfold pollEntry
    split <;> exact .next rfl
  | drive l => exact (gpioWrite_keeps_units ..).rams.andThen fun _ => .next rfl
  | settle l => exact .next rfl
  | sample l c => exact (gpioRead_keeps_units ..).rams.andThen fun _ => .next rfl
  | release l => exact (gpioWrite_keeps_units ..).rams.andThen fun _ => .next rfl
  | decide =>
    show Keeps _ _ (pollDecide s)
    unfold pollDecide
    split
    · exact .fault _
    · exact .next rfl

/-- MD_CONFIGURE leaves everything of KS as it was. -/
theorem execMdConfigure_keeps_ks (ndig pol : Byte) (s : State) : Keeps State.ks s (execMdConfigure ndig pol s) := by
  refine Keeps.inMain ?_
  split
  · exact .next rfl
  · exact (deselectBound_keeps_units s).ks.andThen fun _ => .next rfl

/-- MD_SETPORTS writes no RAM. -/
theorem execMdSetPorts_keeps_rams (data ctrl : GroupOp) (act : Byte) (s : State) :
    Keeps State.rams s (execMdSetPorts data ctrl act s) := by
  refine Keeps.inMain ?_
  split
  · exact .next rfl
  · next lv _ =>
    refine (deselectBound_keeps_units s).rams.andThen fun s1 => ?_
    have hinit : Keeps State.rams s1 (portsInit (portsCommitRegs data ctrl lv s1)) :=
      (portsInit_keeps_units _).rams.congr rfl
    exact hinit.andThen fun _ => .next rfl

/-- No micro-step of MD_UPDATE writes anything of KS. -/
theorem execMdUpdate_keeps_ks (vals pts : List Byte) (s : State) : Keeps State.ks s (execMdUpdate vals pts s) := by
  refine Keeps.inMain ?_
  split
  · have hcopy : Keeps State.ks s (writeEntries vals pts s.md.sel s.md.n 0 (setMasked true s)) :=
      (writeEntries_keeps_ks ..).congr rfl
    exact hcopy.andThen fun _ => .next rfl
  · cases s.md.uphase with
    | idle =>
      show Keeps _ _ (updEntry vals pts s)
      unfold updEntry
      split
      · exact .next rfl
      · split <;> exact .next rfl
    | write i => exact (writeEntry_keeps_ks ..).andThen fun _ => .next rfl
    | commit => exact .next rfl

/-- MD_ADVANCE writes no RAM. -/
theorem execMdAdvance_keeps_rams (s : State) : Keeps State.rams s (execMdAdvance s) := by
  refine Keeps.inTickContext ?_
  split
  · refine (deselect_keeps_units s).rams.andThen fun s1 => ?_
    split
    · exact .fault _
    · exact (gpioWriteRun_keeps_units ..).rams.andThen fun _ =>
        (gpioWrite_keeps_units ..).rams.andThen fun _ => .next rfl
  · exact .next rfl

/-- Only KS_CONFIGURE writes the key map (R66). -/
theorem exec_keyMap {i : Instr} {s t : State} (h : exec i s = .next t) :
    t.ks.keyMap = s.ks.keyMap ∨ ∃ geom k lines cols map, i = .ksConfigure geom k lines cols map := by
  cases i with
  | ksConfigure geom k lines cols map => exact .inr ⟨geom, k, lines, cols, map, rfl⟩
  | ksPoll => exact .inl (congrArg Prod.fst ((execKsPoll_keeps_rams s).eq t h))
  | mdConfigure ndig pol => exact .inl (congrArg Ks.keyMap ((execMdConfigure_keeps_ks ndig pol s).eq t h))
  | mdSetPorts data ctrl act => exact .inl (congrArg Prod.fst ((execMdSetPorts_keeps_rams data ctrl act s).eq t h))
  | mdUpdate vals pts => exact .inl (congrArg Ks.keyMap ((execMdUpdate_keeps_ks vals pts s).eq t h))
  | mdAdvance => exact .inl (congrArg Prod.fst ((execMdAdvance_keeps_rams s).eq t h))

/-- Only MD_CONFIGURE and MD_UPDATE write the digit buffers (R66). -/
theorem exec_buf {i : Instr} {s t : State} (h : exec i s = .next t) :
    t.md.buf = s.md.buf ∨ (∃ ndig pol, i = .mdConfigure ndig pol) ∨ ∃ vals pts, i = .mdUpdate vals pts := by
  cases i with
  | ksConfigure geom k lines cols map =>
    exact .inl (congrArg Md.buf ((execKsConfigure_keeps_md geom k lines cols map s).eq t h))
  | ksPoll => exact .inl (congrArg Prod.snd ((execKsPoll_keeps_rams s).eq t h))
  | mdConfigure ndig pol => exact .inr (.inl ⟨ndig, pol, rfl⟩)
  | mdSetPorts data ctrl act => exact .inl (congrArg Prod.snd ((execMdSetPorts_keeps_rams data ctrl act s).eq t h))
  | mdUpdate vals pts => exact .inr (.inr ⟨vals, pts, rfl⟩)
  | mdAdvance => exact .inl (congrArg Prod.snd ((execMdAdvance_keeps_rams s).eq t h))

/-- Settles O20: the accesses by their rules, the faults a command at a time, and the frame from what each command keeps. -/
theorem ramAccess : Obligations.RamAccess :=
  ⟨keyMapWrite_spec, bufWrite_spec,
    fun s _ v hi => ⟨keyMapRead_eq_none hi s, keyMapWrite_eq_fault hi v s⟩,
    fun s b _ v hd => ⟨bufRead_eq_none hd b s, bufWrite_eq_fault hd b v s⟩,
    fun _ _ => exec_ksPoll_decide_fault,
    fun _ _ vals pts => exec_mdUpdate_write_fault vals pts,
    fun _ => exec_mdAdvance_fault,
    fun _ _ _ h => ⟨exec_keyMap h, exec_buf h⟩⟩

end Sys2Proof.Machine
end

section
/-! SUPPORT. Illegal frames (R83, R93): the command port accepts no frame but the legal ones, and what MAIN's step is on any
other. -/

namespace Sys2Proof.Machine

/-! ### The length of a payload that decodes (R83) -/

theorem length_of_decodeKsConfigure {p : List Byte} {i : Instr} (h : decodeKsConfigure p = .ok i) :
    p.length = 9 + (p.getD 8 0).toNat := by
  unfold decodeKsConfigure at h
  split at h
  · next m map =>
    split at h
    · next hmap =>
      simp only [List.length_cons, List.getD_cons_succ, List.getD_cons_zero]
      omega
    · cases h
  · cases h

theorem eq_nil_of_decodeKsPoll {p : List Byte} {i : Instr} (h : decodeKsPoll p = .ok i) : p = [] := by
  cases p with
  | nil => rfl
  | cons _ _ => cases h

theorem length_of_decodeMdConfigure {p : List Byte} {i : Instr} (h : decodeMdConfigure p = .ok i) :
    p.length = 2 := by
  unfold decodeMdConfigure at h
  split at h
  · rfl
  · cases h

theorem length_of_decodeMdSetPorts {p : List Byte} {i : Instr} (h : decodeMdSetPorts p = .ok i) :
    p.length = 7 := by
  unfold decodeMdSetPorts at h
  split at h
  · rfl
  · cases h

theorem length_of_decodeMdUpdate {p : List Byte} {i : Instr} (h : decodeMdUpdate p = .ok i) :
    p.length = 2 + (p.getD 0 0).toNat + (p.getD 1 0).toNat := by
  unfold decodeMdUpdate at h
  split at h
  · next nv np rest =>
    split at h
    · next hrest =>
      simp only [List.length_cons, List.getD_cons_succ, List.getD_cons_zero]
      omega
    · cases h
  · cases h

/-! ### What the command port rejects (R82, R93) -/

/-- A frame the command port decodes is legal: its opcode is one of the five, and its payload has the length that gives. -/
theorem legalFrame_of_decodeFrame {f : Frame} {i : Instr} (h : decodeFrame .command f = .ok i) : LegalFrame f := by
  change decodeCommand f = .ok i at h
  obtain ⟨op, p⟩ := f
  unfold decodeCommand at h
  split_ifs at h with h01 h02 h11 h12 h13
  · subst h01
    exact ⟨by simp [commandOpcodes], length_of_decodeKsConfigure h⟩
  · subst h02
    exact ⟨by simp [commandOpcodes], congrArg List.length (eq_nil_of_decodeKsPoll h)⟩
  · subst h11
    exact ⟨by simp [commandOpcodes], length_of_decodeMdConfigure h⟩
  · subst h12
    exact ⟨by simp [commandOpcodes], length_of_decodeMdSetPorts h⟩
  · subst h13
    exact ⟨by simp [commandOpcodes], length_of_decodeMdUpdate h⟩

theorem decodeFrame_of_not_legalFrame {f : Frame} (h : ¬ LegalFrame f) : ∃ r, decodeFrame .command f = .error r := by
  cases hdec : decodeFrame .command f with
  | ok i => exact absurd (legalFrame_of_decodeFrame hdec) h
  | error r => exact ⟨r, rfl⟩

/-! ### MAIN's step -/

/-- Issuing a frame emits nothing. -/
@[simp] theorem issue_trace (s : State) : s.issue.trace = s.trace := by
  unfold State.issue
  split <;> rfl

theorem step_of_turn_main {s : State} (h : s.turn = .main) : step s = mainStep s.popTurn := by
  rw [step, takeTurn, h, runTurn]

theorem mainStep_of_decode_error {s : State} {f : Frame} {r : Reject} (hlatch : s.issue.latch = some f)
    (hdec : decodeFrame .command f = .error r) : mainStep s = raise .illegalCommand 0x00 s.issue := by
  simp only [mainStep, hlatch, hdec]

/-- Settles O5: a frame that is not legal does not decode, and the error response to it changes nothing but the latch and the
trace. -/
theorem illegalFramesAnswerIllegalCommand : Obligations.IllegalFramesAnswerIllegalCommand := by
  intro s f hturn hlatch hillegal
  obtain ⟨r, hdec⟩ := decodeFrame_of_not_legalFrame hillegal
  calc step s = mainStep s.popTurn := step_of_turn_main hturn
    _ = raise .illegalCommand 0x00 s.popTurn.issue := mainStep_of_decode_error hlatch hdec
    _ = .next { s.popTurn.issue with
          latch := none, trace := s.popTurn.issue.trace ++ [.response .illegalCommand 0x00] } := rfl
    _ = _ := by rw [issue_trace, popTurn_trace]

end Sys2Proof.Machine
end

section
/-! SUPPORT. Pin groups (R61, R63, R64): their pins and masks, runs of pin events, and one level or one direction on a whole
group. -/

namespace Sys2Proof.Machine

/-! ### Pins of a group (R61, R64) -/

theorem Group.has_iff {g : Group} {n : Nat} {b : PortBase} {p : Nat} :
    g.has n b p = true ↔ b = g.base ∧ g.first.toNat ≤ p ∧ p < g.first.toNat + n := by
  simp [Group.has, and_assoc]

theorem Group.has_pin {g : Group} {n i : Nat} (hi : i < n) : g.has n g.base (g.first.toNat + i) = true :=
  Group.has_iff.mpr ⟨rfl, by omega, by omega⟩

/-- Groups that do not overlap share no pin (R63). -/
theorem Group.not_has_of_overlap {g h : Group} {n m : Nat} (hsep : overlap g n h m = false) {b : PortBase} {p : Nat}
    (hg : g.has n b p = true) : ¬ h.has m b p = true := by
  rw [Group.has_iff]
  rintro ⟨hb, hlo, hhi⟩
  obtain ⟨rfl, hlo', hhi'⟩ := Group.has_iff.mp hg
  simp only [overlap, hb, decide_true, Bool.true_and, Bool.and_eq_false_iff, decide_eq_false_iff_not] at hsep
  omega

/-- A group's mask has the bits of its pins. -/
theorem groupMask_getLsbD (g : Group) (n : Nat) {p : Nat} (hp : p < 8) :
    (groupMask g n).getLsbD p = true ↔ g.first.toNat ≤ p ∧ p < g.first.toNat + n := by
  rw [groupMask, Nat.one_shiftLeft, BitVec.getLsbD_ofNat, Nat.testBit_shiftLeft, Nat.testBit_two_pow_sub_one]
  simp only [hp, decide_true, Bool.true_and, Bool.and_eq_true, decide_eq_true_eq]
  omega

/-- The masked pins of a port are the pins of a group that fits it. -/
theorem mask_iff_has {g : Group} {n : Nat} (hfit : g.first.toNat + n ≤ 8) (b : PortBase) (p : Nat) :
    (b = g.base ∧ p < 8 ∧ (groupMask g n).getLsbD p = true) ↔ g.has n b p = true := by
  rw [Group.has_iff]
  constructor
  · rintro ⟨hb, hp, hm⟩
    exact ⟨hb, (groupMask_getLsbD g n hp).mp hm⟩
  · rintro ⟨hb, hlo, hhi⟩
    have hp : p < 8 := by omega
    exact ⟨hb, hp, (groupMask_getLsbD g n hp).mpr ⟨hlo, hhi⟩⟩

/-- The events of one level on consecutive pins. -/
theorem writeEvents_replicate (base : PortBase) (pin n : Nat) (lv : Level) :
    writeEvents base pin (List.replicate n lv) = (List.range n).map fun i => .write base (pin + i) lv := by
  induction n generalizing pin with
  | zero => rfl
  | succ n ih =>
    rw [List.replicate_succ, writeEvents, ih, List.range_succ_eq_map, List.map_cons, List.map_map]
    simp [Function.comp_def, Nat.add_assoc, Nat.add_comm 1]

/-! ### Runs of pin events -/

/-- `t` is `s` after pin events that emitted `es`: pins may differ, and nothing else does; the pin stores stay canonical. -/
structure PinRun (s : State) (es : List Obs) (t : State) : Prop where
  frame : t = { s with outs := t.outs, dirs := t.dirs, trace := s.trace ++ es }
  outs_wf : Cells.wf s.outs → Cells.wf t.outs
  dirs_wf : Cells.wf s.dirs → Cells.wf t.dirs

theorem PinRun.trans {s t u : State} {es es' : List Obs} (h : PinRun s es t) (h' : PinRun t es' u) :
    PinRun s (es ++ es') u where
  frame := by
    have hframe := h'.frame
    rw [h.frame] at hframe
    rwa [← List.append_assoc]
  outs_wf := h'.outs_wf ∘ h.outs_wf
  dirs_wf := h'.dirs_wf ∘ h.dirs_wf

/-- Pin events bind no pin to a unit. -/
theorem PinRun.conflict {s t : State} {es : List Obs} (h : PinRun s es t) (u : Owner) (base : PortBase) (pin : Nat) :
    t.conflict u base pin = s.conflict u base pin :=
  conflict_congr (congrArg State.ks h.frame) (congrArg State.md h.frame) base pin

/-- No pin of the group is the other unit's. -/
abbrev State.GroupFree (s : State) (u : Owner) (g : Group) (n : Nat) : Prop :=
  ∀ i < n, s.conflict u g.base (g.first.toNat + i) = false

theorem PinRun.groupFree {s t : State} {es : List Obs} (h : PinRun s es t) {u : Owner} {g : Group} {n : Nat}
    (hfree : s.GroupFree u g n) : t.GroupFree u g n :=
  fun i hi => (h.conflict ..).trans (hfree i hi)

/-- One level on every pin of a free group (R64, R70). -/
theorem gpioWriteRun_group_spec {u : Owner} {g : Group} {n : Nat} {s : State} (hfree : s.GroupFree u g n)
    (lv : Level) :
    ∃ t, gpioWriteRun u g.base g.first.toNat (List.replicate n lv) s = .next t ∧ PinRun s (groupWrites g n lv) t ∧
      (∀ b p, t.pinOut b p = if g.has n b p then lv else s.pinOut b p) ∧
      ∀ b p, t.pinDir b p = s.pinDir b p := by
  obtain ⟨outs, hrun, hget, hwf⟩ :=
    gpioWriteRun_spec u g.base (List.replicate n lv) g.first.toNat s (by simpa using hfree)
  rw [writeEvents_replicate] at hrun
  refine ⟨_, hrun, ⟨rfl, hwf, id⟩, fun b p => ?_, fun b p => rfl⟩
  simp only [State.pinOut, hget, List.length_replicate, Group.has_iff]
  split
  · next hp => rw [List.getElem?_replicate, if_pos (by omega), Option.getD_some]
  · rfl

/-- The directions of every pin of a free group that fits its port (R64). -/
theorem gpioSetDir_group_spec {u : Owner} {g : Group} {n : Nat} {s : State} (hfree : s.GroupFree u g n)
    (hfit : g.first.toNat + n ≤ 8) (dirs : Byte) :
    ∃ t, gpioSetDir u g.base (groupMask g n) dirs s = .next t ∧
      PinRun s [.setDir g.base (groupMask g n) (dirs &&& groupMask g n)] t ∧
      (∀ b p, t.pinOut b p = s.pinOut b p) ∧
      ∀ b p, t.pinDir b p = if g.has n b p then Level.ofBit (dirs.getLsbD p) else s.pinDir b p := by
  have hmasked : ∀ p < 8, (groupMask g n).getLsbD p = true → s.conflict u g.base p = false := by
    intro p hp hm
    obtain ⟨hlo, hhi⟩ := (groupMask_getLsbD g n hp).mp hm
    simpa [Nat.add_sub_cancel' hlo] using hfree (p - g.first.toNat) (by omega)
  have hset := (gpioSetDir_eq_next (dirs := dirs)).mpr ⟨hmasked, rfl⟩
  have hdir := gpioSetDir_pinDir hset
  simp only [mask_iff_has hfit] at hdir
  exact ⟨_, hset, ⟨rfl, id, fun h => putDirs_wf _ _ _ h⟩, fun b p => rfl, hdir⟩

end Sys2Proof.Machine
end

section
/-! SUPPORT. KS_CONFIGURE (R110–R113): its checks, the pin initialisation, and the command's whole effect. -/

namespace Sys2Proof.Machine

/-- Outside TICK context a command runs (R213). -/
theorem inMain_of_not_inTick {s : State} (hctx : s.inTick = false) (body : Out) : inMain s body = body := by
  simp [inMain, hctx]

/-! ### The checks in order (R111) -/

theorem geometryOf_eq_none {c : Byte} (h : 2 < c.toNat) : geometryOf c = none := by
  rw [geometryOf_eq, if_neg (by omega), if_neg (by omega), if_neg (by omega)]

section
variable {s : State} {geom k : Byte} {lines cols : GroupOp} {map : List Byte}

/-- A failing check ends KS_CONFIGURE with its kind. -/
theorem answersError_ksConfigure {kind : Result} (hctx : s.inTick = false)
    (hcheck : ksValidate s.params geom k lines cols map = .error kind) :
    AnswersError (.ksConfigure geom k lines cols map) s kind 0x00 := by
  rw [AnswersError, exec, execKsConfigure, inMain_of_not_inTick hctx, hcheck]
  rfl

theorem ksValidate_of_geometry_none {p : Params} (hgeom : geometryOf geom = none) :
    ksValidate p geom k lines cols map = .error .invalidGeometry := by
  simp [ksValidate, hgeom]

/-- The checks that follow a good geometry code, in their order. -/
theorem ksValidate_of_geometry_some {p : Params} {g : Geometry} (hgeom : geometryOf geom = some g) :
    ksValidate p geom k lines cols map =
      if map.length ≠ g.lines * g.cols then .error .invalidGeometry
      else if k = 0 then .error .invalidArgument
      else if usable p lines g.lines = false ∨ usable p cols g.cols = false ∨
          overlap (boundGroup lines) g.lines (boundGroup cols) g.cols = true then .error .portsNotSet
      else .ok g := by
  simp only [ksValidate, hgeom]
  cases usable p lines g.lines <;> cases usable p cols g.cols <;> simp

/-- The checks pass exactly if each of them does. -/
theorem ksValidate_eq_ok {p : Params} {g : Geometry} :
    ksValidate p geom k lines cols map = .ok g ↔
      geometryOf geom = some g ∧ map.length = g.lines * g.cols ∧ k ≠ 0 ∧
      usable p lines g.lines = true ∧ usable p cols g.cols = true ∧
      overlap (boundGroup lines) g.lines (boundGroup cols) g.cols = false := by
  cases hgeom : geometryOf geom with
  | none => simp [ksValidate_of_geometry_none hgeom]
  | some g' =>
    rw [ksValidate_of_geometry_some hgeom]
    constructor
    · intro h
      split_ifs at h with hlen hk hgroups
      obtain rfl : g' = g := by simpa using h
      simp only [not_or, Bool.not_eq_false, Bool.not_eq_true] at hgroups
      exact ⟨rfl, not_not.mp hlen, hk, hgroups⟩
    · rintro ⟨hg, hlen, hk, hlines, hcols, hsep⟩
      obtain rfl : g' = g := by simpa using hg
      rw [if_neg (not_not.mpr hlen), if_neg hk, if_neg (by simp [hlines, hcols, hsep])]

end

/-- Settles O22: each failing check is the answer of `ksValidate`, and a failing check is answered with its kind. -/
theorem ksConfigureErrors : Obligations.KsConfigureErrors := by
  intro s geom k lines cols map hctx
  refine ⟨fun hcode => ?_, fun g hgeom => ⟨fun hlen => ?_, fun hlen hk => ?_, fun hlen hk hgroups => ?_⟩⟩ <;>
    apply answersError_ksConfigure hctx
  · exact ksValidate_of_geometry_none (geometryOf_eq_none hcode)
  · rw [ksValidate_of_geometry_some hgeom, if_pos hlen]
  · rw [ksValidate_of_geometry_some hgeom, if_neg (not_not.mpr hlen), if_pos hk]
  · rw [ksValidate_of_geometry_some hgeom, if_neg (not_not.mpr hlen), if_neg hk, if_pos hgroups]

/-! ### KS_PIN_INIT (R112) -/

/-- A usable group fits its port (R62). -/
theorem boundGroup_fits {p : Params} {g : GroupOp} {n : Nat} (h : usable p g n = true) :
    (boundGroup g).first.toNat + n ≤ 8 := by
  simp only [usable, Bool.and_eq_true, decide_eq_true_eq] at h
  exact h.2

/-- The pin initialisation of groups that fit their ports and are not bound to MD. -/
theorem ksPinInit_spec {s : State}
    (hlineFit : s.ks.lineGrp.first.toNat + s.ks.lines ≤ 8) (hcolFit : s.ks.colGrp.first.toNat + s.ks.cols ≤ 8)
    (hlineFree : s.GroupFree .ks s.ks.lineGrp s.ks.lines) (hcolFree : s.GroupFree .ks s.ks.colGrp s.ks.cols) :
    ∃ t, ksPinInit s = .next t ∧
      PinRun s (ksPinInitEvents s.ks.lineGrp s.ks.colGrp s.ks.lines s.ks.cols (inactiveKp s.params)) t ∧
      (∀ b p, t.pinOut b p =
        if s.ks.colGrp.has s.ks.cols b p then inactiveKp s.params
        else if s.ks.lineGrp.has s.ks.lines b p then inactiveKp s.params else s.pinOut b p) ∧
      ∀ b p, t.pinDir b p =
        if s.ks.colGrp.has s.ks.cols b p then .low
        else if s.ks.lineGrp.has s.ks.lines b p then .high else s.pinDir b p := by
  obtain ⟨t1, hrun1, hpins1, hout1, hdir1⟩ := gpioWriteRun_group_spec hlineFree (inactiveKp s.params)
  obtain ⟨t2, hrun2, hpins2, hout2, hdir2⟩ :=
    gpioSetDir_group_spec (hpins1.groupFree hlineFree) hlineFit (groupMask s.ks.lineGrp s.ks.lines)
  have hpins12 := hpins1.trans hpins2
  obtain ⟨t3, hrun3, hpins3, hout3, hdir3⟩ := gpioSetDir_group_spec (hpins12.groupFree hcolFree) hcolFit 0x00
  have hpins13 := hpins12.trans hpins3
  obtain ⟨t, hrun, hpins, hout, hdir⟩ := gpioWriteRun_group_spec (hpins13.groupFree hcolFree) (inactiveKp s.params)
  refine ⟨t, ?_, ?_, fun b p => ?_, fun b p => ?_⟩
  · simp only [ksPinInit, hrun1, hrun2, hrun3, hrun, andThen_next]
  · simpa [ksPinInitEvents] using hpins13.trans hpins
  · rw [hout, hout3, hout2, hout1]
  · rw [hdir, hdir3, hdir2, hdir1]
    by_cases hline : s.ks.lineGrp.has s.ks.lines b p = true
    · obtain ⟨-, -, hbit⟩ := (mask_iff_has hlineFit b p).mpr hline
      simp [hline, hbit, Level.ofBit]
    · simp [hline, Level.ofBit]

/-! ### The whole command (R110, R113) -/

/-- A key map holds every key of a geometry. -/
theorem Geometry.keys_le (g : Geometry) : g.lines * g.cols ≤ 16 := by
  cases g <;> decide

/-- KS's registers after a successful KS_CONFIGURE (R113). -/
def ksConfigured (g : Geometry) (k : Byte) (lines cols : GroupOp) (keyMap : Memory) : Ks where
  configured := true
  geom := g
  k := k.toNat
  lineGrp := boundGroup lines
  colGrp := boundGroup cols
  keyMap := keyMap
  cand := noKey
  cnt := 0
  phase := .idle
  hit := none

/-- Loading a whole map from entry 0 on: its entries, and every later one as before. -/
theorem keyMapLoad_zero_spec {vs : List Byte} (hfit : vs.length ≤ 16) (s : State) :
    ∃ m, keyMapLoad 0 vs s = .next { s with ks := { s.ks with keyMap := m } } ∧
      (∀ i, State.keyMapRead { s with ks := { s.ks with keyMap := m } } i =
        if i < vs.length then vs[i]? else s.keyMapRead i) ∧
      (s.RamInv → State.RamInv { s with ks := { s.ks with keyMap := m } }) := by
  obtain ⟨m, hload, hread, hwf, hbelow⟩ := keyMapLoad_spec vs 0 s (by omega)
  refine ⟨m, hload, fun i => ?_, fun ⟨hmap, hend, hrest⟩ => ⟨hwf hmap, hbelow hend, hrest⟩⟩
  by_cases hi : i < vs.length
  · have hi16 : i < 16 := by omega
    simp [State.keyMapRead, Config.keyMapSize, hread, hi, hi16]
  · simp [State.keyMapRead, hread, hi]

/-- A KS_CONFIGURE whose checks pass, on pins not bound to MD: the whole next state, its key map by entry and its pins one by
one, and the stores canonical where they were. -/
theorem exec_ksConfigure_spec {s : State} {geom k : Byte} {lines cols : GroupOp} {map : List Byte} {g : Geometry}
    (hctx : s.inTick = false) (hcheck : ksValidate s.params geom k lines cols map = .ok g)
    (hlineFree : s.GroupFree .ks (boundGroup lines) g.lines) (hcolFree : s.GroupFree .ks (boundGroup cols) g.cols) :
    ∃ t keyMap outs dirs, t = { s with
        ks := ksConfigured g k lines cols keyMap
        outs := outs
        dirs := dirs
        latch := none
        trace := s.trace ++
          ksPinInitEvents (boundGroup lines) (boundGroup cols) g.lines g.cols (inactiveKp s.params) ++
          [.response .ok 0x00] } ∧
      exec (.ksConfigure geom k lines cols map) s = .next t ∧
      (∀ i, t.keyMapRead i = if i < map.length then map[i]? else s.keyMapRead i) ∧
      (∀ b p, t.pinOut b p =
        if (boundGroup cols).has g.cols b p then inactiveKp s.params
        else if (boundGroup lines).has g.lines b p then inactiveKp s.params else s.pinOut b p) ∧
      (∀ b p, t.pinDir b p =
        if (boundGroup cols).has g.cols b p then .low
        else if (boundGroup lines).has g.lines b p then .high else s.pinDir b p) ∧
      (s.RamInv → t.RamInv) := by
  obtain ⟨-, hlen, -, hlines, hcols, -⟩ := ksValidate_eq_ok.mp hcheck
  obtain ⟨m, hload, hread, hram⟩ := keyMapLoad_zero_spec (hlen ▸ g.keys_le) (ksCommitRegs g k lines cols s)
  obtain ⟨u, hinit, hpins, hout, hdir⟩ := ksPinInit_spec
    (s := { ksCommitRegs g k lines cols s with ks := { (ksCommitRegs g k lines cols s).ks with keyMap := m } })
    (boundGroup_fits hlines) (boundGroup_fits hcols) hlineFree hcolFree
  have hnext : exec (.ksConfigure geom k lines cols map) s = .next (respond .ok 0x00 (ksSetConfigured u)) := by
    rw [exec, execKsConfigure, inMain_of_not_inTick hctx, hcheck]
    simp only [hload, hinit, andThen_next]
  have hkeyMap : u.ks.keyMap = m := congrArg (·.ks.keyMap) hpins.frame
  have hbuf : u.md.buf = s.md.buf := congrArg (·.md.buf) hpins.frame
  refine ⟨_, m, u.outs, u.dirs, congrArg (respond .ok 0x00 ∘ ksSetConfigured) hpins.frame, hnext, fun i => ?_, hout,
    hdir, fun h => ?_⟩
  · simpa [State.keyMapRead, hkeyMap] using hread i
  · obtain ⟨hmap, hend, hbufwf, hbufend, hdirs, houts⟩ := hram h
    rw [← hkeyMap] at hmap hend
    exact ⟨hmap, hend, hbuf ▸ hbufwf, hbuf ▸ hbufend, hpins.dirs_wf hdirs, hpins.outs_wf houts⟩

/-- Settles O21, from the command's whole next state: a line is no column, and a pin of neither group is as before. -/
theorem ksConfigureSucceeds : Obligations.KsConfigureSucceeds := by
  intro s geom k lines cols map g hctx hgeom hlen hk hlines hcols hsep hlineFree hcolFree
  obtain ⟨_, _, _, _, rfl, hexec, hread, hout, hdir, -⟩ :=
    exec_ksConfigure_spec hctx (ksValidate_eq_ok.mpr ⟨hgeom, hlen, hk, hlines, hcols, hsep⟩) hlineFree hcolFree
  refine ⟨_, hexec, rfl, rfl, rfl, rfl, rfl, rfl, rfl, rfl, rfl, fun i hi => ?_, fun i hi => ?_, rfl, fun i hi => ?_,
    fun j hj => ?_, fun b p hline hcol => ?_, rfl, rfl, rfl, rfl, rfl, rfl, rfl, rfl, rfl, rfl⟩
  · rw [hread, if_pos hi]
  · rw [hread, if_neg (Nat.not_lt.mpr hi)]
  · have hline : (boundGroup lines).has g.lines _ _ = true := Group.has_pin hi
    have hcol := Group.not_has_of_overlap hsep hline
    exact ⟨(hout ..).trans ((if_neg hcol).trans (if_pos hline)), (hdir ..).trans ((if_neg hcol).trans (if_pos hline))⟩
  · have hcol : (boundGroup cols).has g.cols _ _ = true := Group.has_pin hj
    exact ⟨(hout ..).trans (if_pos hcol), (hdir ..).trans (if_pos hcol)⟩
  · have hline := Bool.eq_false_iff.mp hline
    have hcol := Bool.eq_false_iff.mp hcol
    exact ⟨(hout ..).trans ((if_neg hcol).trans (if_neg hline)), (hdir ..).trans ((if_neg hcol).trans (if_neg hline))⟩

end Sys2Proof.Machine
end

section
/-! SUPPORT. KS_POLL (R114–R123): what each micro-step of a scan cycle is, what the invariant says of the lines and columns
during one, and what DECIDE computes. -/

namespace Sys2Proof.Machine

/-! ### The micro-step ks.phase names (R114, R115) -/

section
variable {s : State} (hctx : s.inTick = false)
include hctx

theorem exec_ksPoll_idle (hphase : s.ks.phase = .idle) : exec .ksPoll s = pollEntry s := by
  rw [exec, execKsPoll, inMain_of_not_inTick hctx, hphase]

theorem exec_ksPoll_drive {l : Nat} (hphase : s.ks.phase = .drive l) : exec .ksPoll s = pollDrive l s := by
  rw [exec, execKsPoll, inMain_of_not_inTick hctx, hphase]

theorem exec_ksPoll_settle {l : Nat} (hphase : s.ks.phase = .settle l) : exec .ksPoll s = pollSettle l s := by
  rw [exec, execKsPoll, inMain_of_not_inTick hctx, hphase]

theorem exec_ksPoll_sample {l c : Nat} (hphase : s.ks.phase = .sample l c) : exec .ksPoll s = pollSample l c s := by
  rw [exec, execKsPoll, inMain_of_not_inTick hctx, hphase]

theorem exec_ksPoll_release {l : Nat} (hphase : s.ks.phase = .release l) : exec .ksPoll s = pollRelease l s := by
  rw [exec, execKsPoll, inMain_of_not_inTick hctx, hphase]

theorem exec_ksPoll_decide (hphase : s.ks.phase = .decide) : exec .ksPoll s = pollDecide s := by
  rw [exec, execKsPoll, inMain_of_not_inTick hctx, hphase]

end

/-! ### POLL_ENTRY, SETTLE(l) and SAMPLE(l, c) (R114, R117, R118) -/

/-- Settles O23: the two branches of POLL_ENTRY. -/
theorem pollEntry_branches : Obligations.PollEntry := by
  intro s hctx hphase
  rw [AnswersError, exec_ksPoll_idle hctx hphase]
  constructor
  · intro hconf
    simp only [pollEntry, hconf]
    rfl
  · intro hconf
    simp only [pollEntry, hconf, if_true]

/-- Settles O25. -/
theorem pollSettles : Obligations.PollSettles :=
  fun _ _ hctx hphase => exec_ksPoll_settle hctx hphase

/-- Settles O26, by the rule of a pin read. -/
theorem pollSamplesColumn : Obligations.PollSamplesColumn := by
  rintro s l c lv hctx hphase hfree rfl
  have hread := (gpioRead_eq_next (u := .ks)).mpr ⟨hfree, rfl⟩
  rw [exec_ksPoll_sample hctx hphase]
  show andThen (gpioRead .ks s.ks.colGrp.base (s.colPin c) s) _ = _
  rw [hread]
  rfl

/-! ### The invariant during a scan cycle (R26, R28, R75) -/

theorem State.Inv.inTick_eq_false {s : State} (h : s.Inv) : s.inTick = false := by
  obtain ⟨-, -, -, -, -, -, -, htick⟩ := h
  exact htick

/-- A scan cycle is under way only while the unit is configured. -/
theorem State.Inv.configured_of_phase {s : State} (h : s.Inv) (hphase : s.ks.phase ≠ .idle) :
    s.ks.configured = true := by
  obtain ⟨-, -, ⟨-, -, hscan⟩, -⟩ := h
  exact (hscan hphase).1

/-- The line and the column the phase names lie inside the geometry. -/
theorem State.Inv.phase_inRange {s : State} (h : s.Inv) : s.ks.phase.inRange s.ks.geom = true := by
  obtain ⟨-, -, ⟨hrange, -⟩, -⟩ := h
  exact hrange

/-- No line pin of a configured keypad is bound to MD. -/
theorem State.Inv.linePin_free {s : State} (h : s.Inv) (hconf : s.ks.configured = true) {i : Nat}
    (hi : i < s.ks.lines) : s.mdBound s.ks.lineGrp.base (s.linePin i) = false := by
  obtain ⟨-, -, -, -, hdisjoint, -⟩ := h
  exact (hdisjoint hconf).1 i hi

/-- A line of a configured keypad is at KP_ACTIVE exactly if the phase holds it active. -/
theorem State.Inv.pinOut_line {s : State} (h : s.Inv) (hconf : s.ks.configured = true) {i : Nat}
    (hi : i < s.ks.lines) :
    s.pinOut s.ks.lineGrp.base (s.linePin i) =
      if s.ks.phase.activeLine = some i then s.params.kpActive else inactiveKp s.params := by
  obtain ⟨-, hks, -⟩ := h
  obtain ⟨-, -, -, -, -, -, hlines, -⟩ := hks hconf
  exact (hlines i hi).2

/-- The lines of one group have different pins. -/
@[simp] theorem linePin_inj {s : State} {i j : Nat} : s.linePin i = s.linePin j ↔ i = j := by
  simp [State.linePin]

/-! ### A write to one line (R116, R119) -/

/-- The lines of a scanned keypad after a write to line l: the others stay as the phase holds them. -/
theorem State.Inv.pinOut_line_of_write {s t : State} (h : s.Inv) (hphase : s.ks.phase ≠ .idle) {l : Nat} {lv : Level}
    (hout : ∀ b p, t.pinOut b p = if b = s.ks.lineGrp.base ∧ p = s.linePin l then lv else s.pinOut b p) {i : Nat}
    (hi : i < s.ks.lines) :
    t.pinOut s.ks.lineGrp.base (s.linePin i) =
      if i = l then lv
      else if s.ks.phase.activeLine = some i then s.params.kpActive else inactiveKp s.params := by
  simp [hout, h.pinOut_line (h.configured_of_phase hphase) hi]

/-- The line DRIVE(l) and RELEASE(l) write is not bound to MD. -/
theorem State.Inv.linePin_free_of_phase {s : State} (h : s.Inv) {l : Nat}
    (hphase : s.ks.phase = .drive l ∨ s.ks.phase = .release l) :
    s.mdBound s.ks.lineGrp.base (s.linePin l) = false := by
  have hrange := h.phase_inRange
  have hscan : s.ks.phase ≠ .idle := by rcases hphase with hphase | hphase <;> simp [hphase]
  have hl : l < s.ks.lines := by
    rcases hphase with hphase | hphase <;> simpa [hphase, Phase.inRange, Ks.lines] using hrange
  exact h.linePin_free (h.configured_of_phase hscan) hl

/-- A write to a pin not bound to MD, and then a next phase: the shape of DRIVE(l) and of RELEASE(l). -/
theorem gpioWrite_andThen_setPhase_spec {s : State} {base : PortBase} {pin : Nat}
    (hfree : s.mdBound base pin = false) (lv : Level) (next : Ks → Phase) :
    ∃ t, andThen (gpioWrite .ks base pin lv s) (fun s1 => .next (setPhase (next s1.ks) s1)) = .next t ∧
      t = { s with
        ks := { s.ks with phase := next s.ks }
        outs := t.outs
        trace := s.trace ++ [.write base pin lv] } ∧
      ∀ b p, t.pinOut b p = if b = base ∧ p = pin then lv else s.pinOut b p := by
  have hwrite := (gpioWrite_eq_next (u := .ks) (lv := lv)).mpr ⟨hfree, rfl⟩
  have hout := gpioWrite_pinOut hwrite
  refine ⟨setPhase (next s.ks) { s with
    outs := Cells.put s.outs (pinKey base pin) lv
    trace := s.trace ++ [.write base pin lv] }, ?_, rfl, hout⟩
  rw [hwrite, andThen_next]

theorem pollDrive_spec {s : State} {l : Nat} (hfree : s.mdBound s.ks.lineGrp.base (s.linePin l) = false) :
    ∃ t, pollDrive l s = .next t ∧
      t = { s with
        ks := { s.ks with phase := .settle l }
        outs := t.outs
        trace := s.trace ++ [.write s.ks.lineGrp.base (s.linePin l) s.params.kpActive] } ∧
      ∀ b p, t.pinOut b p = if b = s.ks.lineGrp.base ∧ p = s.linePin l then s.params.kpActive else s.pinOut b p :=
  gpioWrite_andThen_setPhase_spec hfree s.params.kpActive fun _ => .settle l

theorem pollRelease_spec {s : State} {l : Nat} (hfree : s.mdBound s.ks.lineGrp.base (s.linePin l) = false) :
    ∃ t, pollRelease l s = .next t ∧
      t = { s with
        ks := { s.ks with phase := if l + 1 < s.ks.lines then .drive (l + 1) else .decide }
        outs := t.outs
        trace := s.trace ++ [.write s.ks.lineGrp.base (s.linePin l) (inactiveKp s.params)] } ∧
      ∀ b p, t.pinOut b p =
        if b = s.ks.lineGrp.base ∧ p = s.linePin l then inactiveKp s.params else s.pinOut b p :=
  gpioWrite_andThen_setPhase_spec hfree (inactiveKp s.params) fun k => if l + 1 < k.lines then .drive (l + 1) else .decide

/-- Settles O24: the effect by the rule of a pin write; the other lines stay inactive, as none is active in DRIVE(l). -/
theorem pollDrivesLine : Obligations.PollDrivesLine := by
  refine ⟨fun s t l hinv hphase hexec i hi => ?_, fun s l hctx hphase hfree => ?_⟩
  · obtain ⟨u, hrun, -, hout⟩ := pollDrive_spec (hinv.linePin_free_of_phase (.inl hphase))
    obtain rfl : u = t := by rwa [← next_inj, ← hrun, ← exec_ksPoll_drive hinv.inTick_eq_false hphase]
    rw [hinv.pinOut_line_of_write (by simp [hphase]) hout hi]
    simp [hphase, Phase.activeLine]
  · rw [exec_ksPoll_drive hctx hphase]
    exact pollDrive_spec hfree

/-- Settles O27: the effect by the rule of a pin write; the other lines stay inactive, as only l is active in RELEASE(l). -/
theorem pollReleasesLine : Obligations.PollReleasesLine := by
  refine ⟨fun s t l hinv hphase hexec i hi => ?_, fun s l hctx hphase hfree => ?_⟩
  · obtain ⟨u, hrun, -, hout⟩ := pollRelease_spec (hinv.linePin_free_of_phase (.inr hphase))
    obtain rfl : u = t := by rwa [← next_inj, ← hrun, ← exec_ksPoll_release hinv.inTick_eq_false hphase]
    rw [hinv.pinOut_line_of_write (by simp [hphase]) hout hi]
    by_cases hil : i = l
    · simp [hil]
    · simp [hphase, Phase.activeLine, hil, Ne.symm hil]
  · rw [exec_ksPoll_release hctx hphase]
    exact pollRelease_spec hfree

/-! ### DECIDE (R120–R123) -/

@[simp] theorem debounce_cand (mode : ReportMode) (k : Nat) (cand : Byte) (cnt : Nat) (new : Byte) :
    (debounce mode k cand cnt new).cand = new := rfl

/-- The counter after a candidate (R121): one more match, at most K, or the first of a new run. -/
theorem debounce_cnt (mode : ReportMode) (k : Nat) (cand : Byte) (cnt : Nat) (new : Byte) :
    (debounce mode k cand cnt new).cnt = if new = cand then (if cnt < k then cnt + 1 else cnt) else 1 := rfl

/-- What EDGE reports (R122): a key whose count reaches K with this candidate. -/
theorem debounce_out_edge (k : Nat) (cand : Byte) (cnt : Nat) (new : Byte) :
    (debounce .edge k cand cnt new).out =
      if new ≠ 0xFF ∧ (new = cand → cnt < k) ∧ (debounce .edge k cand cnt new).cnt = k then new else 0xFF := by
  have hkey : (0xFF : Byte) = noKey := rfl
  by_cases hmatch : new = cand <;> simp [debounce, hkey, hmatch, and_comm, and_assoc]

/-- What HELD reports (R122): a key whose count is K. -/
theorem debounce_out_held (k : Nat) (cand : Byte) (cnt : Nat) (new : Byte) :
    (debounce .held k cand cnt new).out =
      if new ≠ 0xFF ∧ (debounce .held k cand cnt new).cnt = k then new else 0xFF := by
  have hkey : (0xFF : Byte) = noKey := rfl
  simp [debounce, hkey, and_comm]

/-- DECIDE on a candidate: the debounce registers, and the response that ends the command. -/
theorem pollDecide_of_candidate {s : State} {new : Byte} (hcand : s.candidate = some new) :
    pollDecide s = .next { s with
      ks := { s.ks with
        cand := new
        cnt := (debounce s.params.reportMode s.ks.k s.ks.cand s.ks.cnt new).cnt
        phase := .idle }
      latch := none
      trace := s.trace ++
        [.response .ok (debounce s.params.reportMode s.ks.k s.ks.cand s.ks.cnt new).out] } := by
  simp only [pollDecide, hcand]
  rfl

/-- Settles O28, from what DECIDE does with a candidate and what each report mode answers. -/
theorem pollDecides : Obligations.PollDecides := by
  intro s new cnt out hctx hphase hnew hcnt hedge hheld
  have hcand : s.candidate = some new := by
    rcases hnew with ⟨hhit, rfl⟩ | ⟨i, -, hhit, hread⟩
    · simp [State.candidate, hhit, noKey]
    · simp [State.candidate, hhit, hread]
  rw [← debounce_cnt s.params.reportMode] at hcnt
  have hout : (debounce s.params.reportMode s.ks.k s.ks.cand s.ks.cnt new).out = out := by
    cases hmode : s.params.reportMode with
    | edge => rw [debounce_out_edge, ← hmode, ← hcnt, hedge hmode]
    | held => rw [debounce_out_held, ← hmode, ← hcnt, hheld hmode]
  rw [exec_ksPoll_decide hctx hphase, pollDecide_of_candidate hcand, hout, hcnt]

end Sys2Proof.Machine
end

section
/-! SUPPORT. Digit-buffer entries and the segment output byte (R30, R158, R166): an entry read back from its byte, SEGOUT bit
by bit, and the eight data writes that put a byte on the segment bus. -/

namespace Sys2Proof.Machine

/-! ### Entries and SEGOUT (R30, R166) -/

/-- The bits of an entry's byte: the segments, and above them the point. -/
theorem Entry.toByte_getLsbD (e : Entry) (b : Nat) :
    e.toByte.getLsbD b = if b < 7 then e.seg.getLsbD b else (BitVec.ofBool e.dp).getLsbD (b - 7) :=
  BitVec.getLsbD_append

/-- An entry's byte holds that entry. -/
@[simp] theorem Entry.ofByte_toByte (e : Entry) : Entry.ofByte e.toByte = e := by
  have hseg : e.toByte.extractLsb' 0 7 = e.seg :=
    BitVec.eq_of_getLsbD_eq fun b hb => by simp [Entry.toByte_getLsbD, hb]
  have hdp : e.toByte.getLsbD 7 = e.dp := by
    rw [Entry.toByte_getLsbD]
    simp
  rw [Entry.ofByte, hseg, hdp]

/-- Under common-cathode bits 0..6 of SEGOUT are the segments. -/
theorem segOut_cc_getLsbD {b : Nat} (hb : b < 7) (e : Entry) : (segOut e .cc).getLsbD b = e.seg.getLsbD b := by
  have hb8 : b < 8 := by omega
  simp [segOut, hb, hb8]

/-- Under common-cathode bit 7 of SEGOUT is the point, as a pattern has no bit 7. -/
theorem segOut_cc_getLsbD_seven (e : Entry) : (segOut e .cc).getLsbD 7 = e.dp := by
  simp [segOut]

/-- Under common-anode SEGOUT is the inverted byte; the mask of R166 cuts nothing off a byte. -/
theorem segOut_ca (e : Entry) : segOut e .ca = ~~~segOut e .cc :=
  BitVec.and_allOnes

/-- The blank entry puts the level of an unlit segment on every data pin. -/
theorem byteLevels_segOut_blank (pol : Polarity) :
    byteLevels (segOut ⟨0, false⟩ pol) = List.replicate 8 (blank pol) := by
  cases pol <;> decide

/-- Settles O16, SEGOUT under each polarity. -/
theorem segmentOutput : Obligations.SegmentOutput := by
  refine fun e => ⟨fun b hb => segOut_cc_getLsbD hb e, segOut_cc_getLsbD_seven e, fun b hb => ?_, byteLevels_segOut_blank⟩
  simp [segOut_ca, hb]

/-! ### A byte on the segment bus (R67, R164) -/

/-- The events of a run of writes given pin by pin. -/
theorem writeEvents_map_range (base : PortBase) (pin n : Nat) (f : Nat → Level) :
    writeEvents base pin ((List.range n).map f) = (List.range n).map fun i => .write base (pin + i) (f i) := by
  induction n generalizing pin f with
  | zero => rfl
  | succ n ih =>
    rw [List.range_succ_eq_map, List.map_cons, List.map_map, writeEvents, ih, List.map_cons, List.map_map]
    simp [Function.comp_def, Nat.add_assoc, Nat.add_comm 1]

/-- The bits of a byte on the eight pins of a free group, the first pin first. -/
theorem gpioWriteRun_byte_spec {u : Owner} {g : Group} {s : State} (hfree : s.GroupFree u g 8) (v : Byte) :
    ∃ t, gpioWriteRun u g.base g.first.toNat (byteLevels v) s = .next t ∧
      PinRun s ((List.range 8).map fun i => .write g.base (g.first.toNat + i) (Level.ofBit (v.getLsbD i))) t ∧
      (∀ b p, t.pinOut b p =
        if g.has 8 b p then Level.ofBit (v.getLsbD (p - g.first.toNat)) else s.pinOut b p) ∧
      t.dirs = s.dirs := by
  obtain ⟨outs, hrun, hget, hwf⟩ :=
    gpioWriteRun_spec u g.base (byteLevels v) g.first.toNat s (by simpa [byteLevels, Config.portPins] using hfree)
  have hevents : writeEvents g.base g.first.toNat (byteLevels v) =
      (List.range 8).map fun i => .write g.base (g.first.toNat + i) (Level.ofBit (v.getLsbD i)) :=
    writeEvents_map_range ..
  rw [hevents] at hrun
  refine ⟨_, hrun, ⟨rfl, hwf, id⟩, fun b p => ?_, rfl⟩
  simp only [State.pinOut, hget, byteLevels, Config.portPins, List.length_map, List.length_range, Group.has_iff]
  split
  · next hp =>
    have hbit : p - g.first.toNat < 8 := by omega
    simp [hbit]
  · rfl

end Sys2Proof.Machine
end

section
/-! SUPPORT. MD_SETPORTS (R152–R156): its checks, the deselect of the lit digit, the pin initialisation, and the command's
whole effect. -/

namespace Sys2Proof.Machine

/-! ### The checks in order (R152, R153, R154) -/

theorem activeLevelOf_eq_none {c : Byte} (h : 1 < c.toNat) : activeLevelOf c = none := by
  rw [activeLevelOf_eq, if_neg (by omega), if_neg (by omega)]

theorem exists_activeLevelOf {c : Byte} (h : c.toNat ≤ 1) : ∃ lv, activeLevelOf c = some lv := by
  rw [activeLevelOf_eq]
  by_cases h0 : c.toNat = 0
  · exact ⟨.low, if_pos h0⟩
  · exact ⟨.high, by rw [if_neg h0, if_pos (by omega)]⟩

section
variable {s : State} {data ctrl : GroupOp} {act : Byte}

/-- A failing check ends MD_SETPORTS with its kind. -/
theorem answersError_mdSetPorts {kind : Result} (hctx : s.inTick = false)
    (hcheck : portsValidate s.params s.md data ctrl act = .error kind) :
    AnswersError (.mdSetPorts data ctrl act) s kind 0x00 := by
  rw [AnswersError, exec, execMdSetPorts, inMain_of_not_inTick hctx, hcheck]
  rfl

theorem portsValidate_of_not_configured {p : Params} {md : Md} (hconf : md.configured = false) :
    portsValidate p md data ctrl act = .error .notConfigured := by
  simp [portsValidate, hconf]

theorem portsValidate_of_level_none {p : Params} {md : Md} (hconf : md.configured = true)
    (hact : activeLevelOf act = none) : portsValidate p md data ctrl act = .error .invalidArgument := by
  simp [portsValidate, hconf, hact]

/-- The checks that follow a good active-level code. -/
theorem portsValidate_of_level_some {p : Params} {md : Md} {lv : Level} (hconf : md.configured = true)
    (hact : activeLevelOf act = some lv) :
    portsValidate p md data ctrl act =
      if usable p data 8 = false ∨ usable p ctrl md.n = false ∨
          overlap (boundGroup data) 8 (boundGroup ctrl) md.n = true then .error .portsNotSet
      else .ok lv := by
  have hgroups : portsValidate p md data ctrl act =
      if !usable p data 8 then .error .portsNotSet
      else if !usable p ctrl md.n then .error .portsNotSet
      else if overlap (boundGroup data) 8 (boundGroup ctrl) md.n then .error .portsNotSet
      else .ok lv := by
    rw [portsValidate, hconf, hact]
    rfl
  rw [hgroups]
  cases usable p data 8 <;> cases usable p ctrl md.n <;> simp

/-- The checks pass exactly if each of them does. -/
theorem portsValidate_eq_ok {p : Params} {md : Md} {lv : Level} :
    portsValidate p md data ctrl act = .ok lv ↔
      md.configured = true ∧ activeLevelOf act = some lv ∧
      usable p data 8 = true ∧ usable p ctrl md.n = true ∧
      overlap (boundGroup data) 8 (boundGroup ctrl) md.n = false := by
  cases hconf : md.configured with
  | false => simp [portsValidate_of_not_configured hconf]
  | true =>
    cases hact : activeLevelOf act with
    | none => simp [portsValidate_of_level_none hconf hact]
    | some lv' =>
      rw [portsValidate_of_level_some hconf hact]
      split_ifs with hgroups
      · simp only [false_iff]
        rintro ⟨-, -, hdata, hctrl, hsep⟩
        simp [hdata, hctrl, hsep] at hgroups
      · simp only [not_or, Bool.not_eq_false, Bool.not_eq_true] at hgroups
        simp [hgroups]

end

/-- Settles O36: each failing check is the answer of `portsValidate`, and a failing check is answered with its kind. -/
theorem mdSetPortsErrors : Obligations.MdSetPortsErrors := by
  intro s data ctrl act hctx
  refine ⟨fun hconf => ?_, fun hconf hcode => ?_, fun hconf hcode hgroups => ?_⟩ <;>
    apply answersError_mdSetPorts hctx
  · exact portsValidate_of_not_configured hconf
  · exact portsValidate_of_level_none hconf (activeLevelOf_eq_none hcode)
  · obtain ⟨lv, hact⟩ := exists_activeLevelOf hcode
    rw [portsValidate_of_level_some hconf hact, if_pos hgroups]

/-! ### Pin events of MD (R64, R155, R156, R164) -/

/-- A run of pin events that left every direction alone changed the output latches and the trace. -/
theorem PinRun.eq_of_dirs {s t : State} {es : List Obs} (h : PinRun s es t) (hdirs : t.dirs = s.dirs) :
    t = { s with outs := t.outs, trace := s.trace ++ es } := by
  have hframe := h.frame
  rwa [hdirs] at hframe

/-- Pin events write no MD register. -/
theorem PinRun.md_eq {s t : State} {es : List Obs} (h : PinRun s es t) : t.md = s.md := by
  rw [h.frame]

theorem PinRun.refl (s : State) : PinRun s [] s := ⟨by rw [List.append_nil], id, id⟩

/-- One write on a free pin, as a run of one event. -/
theorem gpioWrite_pinRun {u : Owner} {base : PortBase} {pin : Nat} {s : State}
    (hfree : s.conflict u base pin = false) (lv : Level) :
    ∃ t, gpioWrite u base pin lv s = .next t ∧ PinRun s [.write base pin lv] t ∧
      (∀ b p, t.pinOut b p = if b = base ∧ p = pin then lv else s.pinOut b p) ∧ t.dirs = s.dirs := by
  have hwrite := (gpioWrite_eq_next (lv := lv)).mpr ⟨hfree, rfl⟩
  exact ⟨_, hwrite, ⟨rfl, fun h => Cells.wf_put h _ _, id⟩, gpioWrite_pinOut hwrite, rfl⟩

/-- What one write leaves in a pin's latch. -/
theorem replayPin_write (base : PortBase) (pin : Nat) (lv : Level) (b : PortBase) (p : Nat) (cur : Level) :
    replayPin [.write base pin lv] b p cur = if b = base ∧ p = pin then lv else cur := by
  simp [replayPin, eq_comm]

/-- The lit digit's select pin, if a digit is lit, is not bound to KS. -/
abbrev State.LitFree (s : State) : Prop :=
  ∀ a, s.md.activeDigit = some a → s.ksBound s.md.ctrlGrp.base (s.selectPin a) = false

/-- The deselect of the lit digit, or nothing with no digit lit. -/
theorem deselect_spec {s : State} (hlit : s.LitFree) :
    ∃ t, deselect s = .next t ∧ PinRun s (deselectEvents s.md) t ∧
      (∀ b p, t.pinOut b p = replayPin (deselectEvents s.md) b p (s.pinOut b p)) ∧ t.dirs = s.dirs := by
  unfold deselect deselectEvents
  cases hdigit : s.md.activeDigit with
  | none => exact ⟨s, rfl, .refl s, fun b p => rfl, rfl⟩
  | some a =>
    simp only [replayPin_write]
    exact gpioWrite_pinRun (u := .md) (hlit a hdigit) s.md.act.inv

/-- The deselect of a bound display, or nothing of an unbound one. -/
theorem deselectBound_spec {s : State} (hlit : s.md.portsSet = true → s.LitFree) :
    ∃ t, deselectBound s = .next t ∧ PinRun s (if s.md.portsSet then deselectEvents s.md else []) t ∧
      (∀ b p, t.pinOut b p =
        if s.md.portsSet then replayPin (deselectEvents s.md) b p (s.pinOut b p) else s.pinOut b p) ∧
      t.dirs = s.dirs := by
  unfold deselectBound
  cases hports : s.md.portsSet with
  | false => exact ⟨s, rfl, .refl s, fun b p => rfl, rfl⟩
  | true => exact deselect_spec (hlit hports)

/-- Every pin of a free group that fits its port as an output (R64). -/
theorem gpioSetDir_outputs_spec {u : Owner} {g : Group} {n : Nat} {s : State} (hfree : s.GroupFree u g n)
    (hfit : g.first.toNat + n ≤ 8) :
    ∃ t, gpioSetDir u g.base (groupMask g n) (groupMask g n) s = .next t ∧
      PinRun s [.setDir g.base (groupMask g n) (groupMask g n)] t ∧
      (∀ b p, t.pinOut b p = s.pinOut b p) ∧
      ∀ b p, t.pinDir b p = if g.has n b p then .high else s.pinDir b p := by
  obtain ⟨t, hset, hpins, hout, hdir⟩ := gpioSetDir_group_spec hfree hfit (groupMask g n)
  rw [BitVec.and_self] at hpins
  refine ⟨t, hset, hpins, hout, fun b p => ?_⟩
  rw [hdir]
  split
  · next hpin =>
    obtain ⟨-, -, hbit⟩ := (mask_iff_has hfit b p).mpr hpin
    rw [hbit]
    rfl
  · rfl

/-! ### MD_PORTS_INIT (R156) -/

/-- The mask of a group of eight pins that fits its port is the whole port. -/
theorem groupMask_eight {g : Group} (hfit : g.first.toNat + 8 ≤ 8) : groupMask g 8 = 0xFF := by
  have hfirst : g.first.toNat = 0 := by omega
  rw [groupMask, hfirst]
  rfl

theorem portsInitEvents_length (data ctrl : Group) (n : Nat) (act : Level) (pol : Polarity) :
    (portsInitEvents data ctrl n act pol).length = n + 10 := by
  simp [portsInitEvents, groupWrites, Config.portPins]

/-- The pin initialisation of groups that fit their ports and are not bound to KS. -/
theorem portsInit_spec {s : State}
    (hctrlFit : s.md.ctrlGrp.first.toNat + s.md.n ≤ 8) (hdataFit : s.md.dataGrp.first.toNat + 8 ≤ 8)
    (hctrlFree : s.GroupFree .md s.md.ctrlGrp s.md.n) (hdataFree : s.GroupFree .md s.md.dataGrp 8) :
    ∃ t, portsInit s = .next t ∧
      PinRun s (portsInitEvents s.md.dataGrp s.md.ctrlGrp s.md.n s.md.act s.md.pol) t ∧
      (∀ b p, t.pinOut b p =
        if s.md.dataGrp.has 8 b p then blank s.md.pol
        else if s.md.ctrlGrp.has s.md.n b p then s.md.act.inv else s.pinOut b p) ∧
      ∀ b p, t.pinDir b p =
        if s.md.dataGrp.has 8 b p then .high
        else if s.md.ctrlGrp.has s.md.n b p then .high else s.pinDir b p := by
  obtain ⟨t1, hrun1, hpins1, hout1, hdir1⟩ := gpioWriteRun_group_spec hctrlFree s.md.act.inv
  obtain ⟨t2, hrun2, hpins2, hout2, hdir2⟩ := gpioSetDir_outputs_spec (hpins1.groupFree hctrlFree) hctrlFit
  have hpins12 := hpins1.trans hpins2
  obtain ⟨t3, hrun3, hpins3, hout3, hdir3⟩ :=
    gpioWriteRun_group_spec (hpins12.groupFree hdataFree) (blank s.md.pol)
  have hpins13 := hpins12.trans hpins3
  obtain ⟨t, hrun, hpins, hout, hdir⟩ := gpioSetDir_outputs_spec (hpins13.groupFree hdataFree) hdataFit
  rw [groupMask_eight hdataFit] at hrun hpins
  refine ⟨t, ?_, hpins13.trans hpins, fun b p => ?_, fun b p => ?_⟩
  · simp only [portsInit, Config.portPins, hrun1, hrun2, hrun3, hrun, andThen_next]
  · rw [hout, hout3, hout2, hout1]
  · rw [hdir, hdir3, hdir2, hdir1]

/-! ### The whole command (R153, R155) -/

/-- An MD_SETPORTS whose checks pass, on pins not bound to KS: the whole next state, its pins one by one, and the stores
canonical where they were. -/
theorem exec_mdSetPorts_spec {s : State} {data ctrl : GroupOp} {act : Byte} {lv : Level} (hctx : s.inTick = false)
    (hcheck : portsValidate s.params s.md data ctrl act = .ok lv) (hlit : s.md.portsSet = true → s.LitFree)
    (hdataFree : s.GroupFree .md (boundGroup data) 8) (hctrlFree : s.GroupFree .md (boundGroup ctrl) s.md.n) :
    ∃ t outs dirs, t = { portsCommitRegs data ctrl lv s with
        outs := outs
        dirs := dirs
        latch := none
        trace := s.trace ++ (if s.md.portsSet then deselectEvents s.md else []) ++
          portsInitEvents (boundGroup data) (boundGroup ctrl) s.md.n lv s.md.pol ++ [.response .ok 0x00] } ∧
      exec (.mdSetPorts data ctrl act) s = .next t ∧
      (∀ b p, t.pinOut b p =
        if (boundGroup data).has 8 b p then blank s.md.pol
        else if (boundGroup ctrl).has s.md.n b p then lv.inv
        else if s.md.portsSet then replayPin (deselectEvents s.md) b p (s.pinOut b p) else s.pinOut b p) ∧
      (∀ b p, t.pinDir b p =
        if (boundGroup data).has 8 b p then .high
        else if (boundGroup ctrl).has s.md.n b p then .high else s.pinDir b p) ∧
      (s.RamInv → t.RamInv) := by
  obtain ⟨-, -, hdata, hctrl, -⟩ := portsValidate_eq_ok.mp hcheck
  obtain ⟨s1, hdesel, hpins1, hout1, hdirs1⟩ := deselectBound_spec hlit
  have hframe := hpins1.eq_of_dirs hdirs1
  have hwf := hpins1.outs_wf
  generalize s1.outs = outs1 at hframe hwf
  subst hframe
  obtain ⟨u, hinit, hpins, hout, hdir⟩ := portsInit_spec
    (s := portsCommitRegs data ctrl lv { s with
      outs := outs1, trace := s.trace ++ if s.md.portsSet then deselectEvents s.md else [] })
    (boundGroup_fits hctrl) (boundGroup_fits hdata) hctrlFree hdataFree
  have hnext : exec (.mdSetPorts data ctrl act) s = .next (respond .ok 0x00 u) := by
    rw [exec, execMdSetPorts, inMain_of_not_inTick hctx, hcheck]
    simp only [hdesel, hinit, andThen_next]
  have hkeyMap : u.ks.keyMap = s.ks.keyMap := congrArg (·.ks.keyMap) hpins.frame
  have hbuf : u.md.buf = s.md.buf := congrArg (·.md.buf) hpins.frame
  refine ⟨_, u.outs, u.dirs, congrArg (respond .ok 0x00) hpins.frame, hnext, fun b p => (hout b p).trans ?_, hdir, ?_⟩
  · rw [← hout1]; rfl
  · rintro ⟨hmap, hend, hbufwf, hbufend, hdirs, houts⟩
    exact ⟨hkeyMap ▸ hmap, hkeyMap ▸ hend, hbuf ▸ hbufwf, hbuf ▸ hbufend, hpins.dirs_wf hdirs, hpins.outs_wf (hwf houts)⟩

/-- Settles O35, from the command's whole next state: a select pin is no data pin, and a pin of neither group keeps its
direction and what the old binding's deselect left in its latch. -/
theorem mdSetPortsSucceeds : Obligations.MdSetPortsSucceeds := by
  intro s data ctrl act lv hctx hconf hact hdata hctrl hsep hlit hdataFree hctrlFree
  obtain ⟨_, _, _, rfl, hexec, hout, hdir, -⟩ :=
    exec_mdSetPorts_spec hctx (portsValidate_eq_ok.mpr ⟨hconf, hact, hdata, hctrl, hsep⟩)
      (fun hports a => hlit a hports) hdataFree hctrlFree
  refine ⟨_, hexec, rfl, rfl, portsInitEvents_length .., fun d hd => ?_, fun b hb => ?_, fun b p hdataPin hctrlPin => ?_,
    rfl, rfl, rfl, rfl, rfl, rfl, rfl, rfl, rfl, rfl⟩
  · have hsel : (boundGroup ctrl).has s.md.n _ _ = true := Group.has_pin hd
    have hnotData := fun hpin => Group.not_has_of_overlap hsep hpin hsel
    exact ⟨(hout ..).trans ((if_neg hnotData).trans (if_pos hsel)),
      (hdir ..).trans ((if_neg hnotData).trans (if_pos hsel))⟩
  · have hpin : (boundGroup data).has 8 _ _ = true := Group.has_pin hb
    exact ⟨(hout ..).trans (if_pos hpin), (hdir ..).trans (if_pos hpin)⟩
  · have hnotData := Bool.eq_false_iff.mp hdataPin
    have hnotCtrl := Bool.eq_false_iff.mp hctrlPin
    exact ⟨(hdir ..).trans ((if_neg hnotData).trans (if_neg hnotCtrl)),
      (hout ..).trans ((if_neg hnotData).trans (if_neg hnotCtrl))⟩

end Sys2Proof.Machine
end

section
/-! SUPPORT. MD_UPDATE under SWAP (R158, R160, R161): the micro-step md.uphase names, WRITE(i) and COMMIT. -/

namespace Sys2Proof.Machine

/-! ### The micro-step md.uphase names (R160, R161) -/

section
variable {s : State} (vals pts : List Byte) (hctx : s.inTick = false) (hmask : s.md.maskedDue = false)
include hctx hmask

theorem exec_mdUpdate_write {i : Nat} (hphase : s.md.uphase = .write i) :
    exec (.mdUpdate vals pts) s = updWrite vals pts i s := by
  simp [exec, execMdUpdate, inMain_of_not_inTick hctx, hmask, hphase]

theorem exec_mdUpdate_commit (hphase : s.md.uphase = .commit) : exec (.mdUpdate vals pts) s = updCommit s := by
  simp [exec, execMdUpdate, inMain_of_not_inTick hctx, hmask, hphase]

end

/-! ### WRITE(i) (R158, R160) -/

/-- Where the latched operands reach, writing E(i) is one buffer write. -/
theorem writeEntry_eq_bufWrite {vals pts : List Byte} {i : Nat} {v p : Byte} (hval : vals[i]? = some v)
    (hpt : pts[i]? = some p) (b : Bool) (s : State) :
    writeEntry vals pts b i s = bufWrite b i (updateEntry s.params v p).toByte s := by
  simp only [writeEntry, hval, hpt]

/-- Settles O38: the one buffer write goes to the shadow buffer, and its byte holds E(i). -/
theorem updateWritesShadowEntry : Obligations.UpdateWritesShadowEntry := by
  intro s vals pts i v p hctx hmask hphase hi hval hpt
  obtain ⟨u, hwrite, hframe, hentry, hother⟩ := bufWrite_spec s (!s.md.sel) i (updateEntry s.params v p).toByte hi
  rw [exec_mdUpdate_write vals pts hctx hmask hphase, updWrite, writeEntry_eq_bufWrite hval hpt, hwrite, andThen_next]
  generalize u.md.buf = buf at hframe
  subst hframe
  refine ⟨_, rfl, rfl, ?_, fun d hd => hother _ d (.inr hd), fun d => hother _ d (.inl ?_)⟩
  · exact (congrArg (Option.map Entry.ofByte) hentry).trans (congrArg some (Entry.ofByte_toByte _))
  · exact (Bool.not_ne_self s.md.sel).symm

/-! ### COMMIT (R161) -/

/-- Settles O39: once md.sel is flipped, each name stands for the other buffer. -/
theorem updateCommits : Obligations.UpdateCommits := by
  intro s vals pts hctx hmask hphase
  refine ⟨_, exec_mdUpdate_commit vals pts hctx hmask hphase, rfl, fun d => rfl, fun d => ?_⟩
  exact congrArg (fun b => s.bufRead b d) (Bool.not_not s.md.sel)

end Sys2Proof.Machine
end

section
/-! SUPPORT. MD_ADVANCE (R163–R165): what a refresh does to the pins and the round-robin. -/

namespace Sys2Proof.Machine

/-- A tick on a configured, bound display is a refresh (R163). -/
theorem exec_mdAdvance_bound {s : State} (hctx : s.inTick = true) (hconf : s.md.configured = true)
    (hports : s.md.portsSet = true) : exec .mdAdvance s = mdRefresh s := by
  simp [exec, execMdAdvance, inTickContext, hctx, hconf, hports]

/-- A refresh that shows entry `e`, on pins not bound to KS: the whole next state, its output latches one by one, and the pin
store canonical where it was. -/
theorem mdRefresh_spec {s : State} {e : Entry} (hentry : (s.activeEntry s.md.idx).map Entry.ofByte = some e)
    (hlit : s.LitFree) (hdataFree : s.GroupFree .md s.md.dataGrp 8)
    (hsel : s.ksBound s.md.ctrlGrp.base (s.selectPin s.md.idx) = false) :
    ∃ t, mdRefresh s = .next t ∧
      t = { s with
        md := { s.md with activeDigit := some s.md.idx, idx := (s.md.idx + 1) % s.md.n }
        outs := t.outs
        trace := s.trace ++ refreshEvents s.md e s.md.idx } ∧
      (∀ b p, t.pinOut b p =
        if b = s.md.ctrlGrp.base ∧ p = s.selectPin s.md.idx then s.md.act
        else if s.md.dataGrp.has 8 b p then Level.ofBit ((segOut e s.md.pol).getLsbD (p - s.md.dataGrp.first.toNat))
        else replayPin (deselectEvents s.md) b p (s.pinOut b p)) ∧
      (Cells.wf s.outs → Cells.wf t.outs) := by
  obtain ⟨v, hread, rfl⟩ := Option.map_eq_some_iff.mp hentry
  obtain ⟨s1, hrun1, hpins1, hout1, hdirs1⟩ := deselect_spec hlit
  obtain ⟨s2, hrun2, hpins2, hout2, hdirs2⟩ :=
    gpioWriteRun_byte_spec (hpins1.groupFree hdataFree) (segOut (Entry.ofByte v) s.md.pol)
  have hpins12 := hpins1.trans hpins2
  obtain ⟨s3, hrun3, hpins3, hout3, hdirs3⟩ :=
    gpioWrite_pinRun ((hpins12.conflict .md s.md.ctrlGrp.base (s.selectPin s.md.idx)).trans hsel) s.md.act
  have hpins := hpins12.trans hpins3
  have hframe := hpins.eq_of_dirs (hdirs3.trans (hdirs2.trans hdirs1))
  have hmd1 : s1.md = s.md := hpins1.md_eq
  have hmd2 : s2.md = s.md := hpins12.md_eq
  have hread1 : s1.bufRead s.md.sel s.md.idx = some v := by
    rw [← hread, State.activeEntry, State.bufRead, State.bufRead, hmd1]
  refine ⟨{ s3 with md := { s3.md with activeDigit := some s3.md.idx, idx := (s3.md.idx + 1) % s3.md.n } }, ?_, ?_, ?_,
    hpins.outs_wf⟩
  · unfold State.selectPin at hrun3
    simp only [mdRefresh, hrun1, andThen_next, hmd1, hread1, hrun2, hmd2, hrun3]
  · rw [hframe]
    rfl
  · intro b p
    rw [← hout1, ← hout2]
    exact hout3 b p

/-- Settles O43, from the refresh's whole next state: the select pin and the data pins are apart, and of the old lit digit's
pin the deselect has the last word unless that digit is shown again. -/
theorem advanceRefreshesDigit : Obligations.AdvanceRefreshesDigit := by
  intro s e hctx hconf hports hidx hentry hsep hlit hdataFree hctrlFree
  obtain ⟨t, hrefresh, hframe, hout, -⟩ :=
    mdRefresh_spec hentry (fun a ha => hctrlFree a (hlit a ha)) hdataFree (hctrlFree _ hidx)
  have hselect {d : Nat} (hd : d < s.md.n) : ¬ s.md.dataGrp.has 8 s.md.ctrlGrp.base (s.selectPin d) = true :=
    fun hpin => Group.not_has_of_overlap hsep hpin (Group.has_pin hd)
  rw [exec_mdAdvance_bound hctx hconf hports]
  refine ⟨t, hrefresh, hframe, fun b hb => ?_, ?_, fun a ha hne => ?_, fun b p hdata hctrl => ?_⟩
  · have hpin : s.md.dataGrp.has 8 s.md.dataGrp.base (s.dataPin b) = true := Group.has_pin hb
    have hnotSelect : ¬ (s.md.dataGrp.base = s.md.ctrlGrp.base ∧ s.dataPin b = s.selectPin s.md.idx) := by
      rintro ⟨hbase, hsame⟩
      rw [hbase, hsame] at hpin
      exact hselect hidx hpin
    rw [hout, if_neg hnotSelect, if_pos hpin, State.dataPin, Nat.add_sub_cancel_left]
  · rw [hout, if_pos ⟨rfl, rfl⟩]
  · have hnotSelect : s.selectPin a ≠ s.selectPin s.md.idx := by simp [State.selectPin, hne]
    rw [hout, if_neg fun h => hnotSelect h.2, if_neg (hselect (hlit a ha)), deselectEvents, ha]
    exact (replayPin_write ..).trans (if_pos ⟨rfl, rfl⟩)
  · rw [hout, if_neg (hctrl _ (.inr rfl)), if_neg (Bool.eq_false_iff.mp hdata), deselectEvents]
    cases hdigit : s.md.activeDigit with
    | none => rfl
    | some a => exact (replayPin_write ..).trans (if_neg (hctrl a (.inl hdigit)))

end Sys2Proof.Machine
end

section
/-! SUPPORT. Ticks (R163, R204–R209): what MD_ADVANCE and the tick step keep, and that a tick answers nothing. -/

namespace Sys2Proof.Machine

/-! ### Views that pin writes do not reach -/

/-- No pin write changes the view: neither the output latches nor a write event in the trace shows in it. -/
structure WriteBlind {α : Type} (view : State → α) : Prop where
  eq : ∀ (s : State) (outs : Cells Level) (base : PortBase) (pin : Nat) (lv : Level),
    view { s with outs := outs, trace := s.trace ++ [.write base pin lv] } = view s

section
variable {α : Type} {view : State → α}

theorem WriteBlind.gpioWrite (hview : WriteBlind view) (u : Owner) (base : PortBase) (pin : Nat) (lv : Level)
    (s : State) : Keeps view s (gpioWrite u base pin lv s) := by
  refine ⟨fun t ht => ?_⟩
  obtain ⟨-, rfl⟩ := gpioWrite_eq_next.mp ht
  exact hview.eq ..

theorem WriteBlind.gpioWriteRun (hview : WriteBlind view) (u : Owner) (base : PortBase) (pin : Nat) (lvs : List Level)
    (s : State) : Keeps view s (gpioWriteRun u base pin lvs s) := by
  induction lvs generalizing pin s with
  | nil => exact .next rfl
  | cons lv rest ih => exact (hview.gpioWrite ..).andThen fun s1 => ih (pin + 1) s1

theorem WriteBlind.deselect (hview : WriteBlind view) (s : State) : Keeps view s (deselect s) := by
  unfold Machine.deselect
  split
  · exact .next rfl
  · exact hview.gpioWrite ..

theorem WriteBlind.deselectBound (hview : WriteBlind view) (s : State) : Keeps view s (deselectBound s) := by
  unfold Machine.deselectBound
  split
  · exact hview.deselect s
  · exact .next rfl

/-- MD_ADVANCE keeps every view that shows neither pin writes nor the round-robin (R163–R165). -/
theorem WriteBlind.execMdAdvance (hview : WriteBlind view)
    (hrobin : ∀ (s : State) (idx : Nat) (digit : Option Nat),
      view { s with md := { s.md with idx := idx, activeDigit := digit } } = view s)
    (s : State) : Keeps view s (execMdAdvance s) := by
  refine Keeps.inTickContext ?_
  split
  · refine (hview.deselect s).andThen fun s1 => ?_
    split
    · exact .fault _
    · exact (hview.gpioWriteRun ..).andThen fun _ => (hview.gpioWrite ..).andThen fun _ => .next (hrobin ..)
  · exact .next rfl

end

/-! ### The responses of a state's trace (R92) -/

/-- The responses so far. -/
def State.answers (s : State) : List (Result × Byte) := responses s.trace

theorem responses_append (tr tr' : List Obs) : responses (tr ++ tr') = responses tr ++ responses tr' :=
  List.filterMap_append

theorem answers_respond (res : Result) (data : Byte) (s : State) :
    (respond res data s).answers = s.answers ++ [(res, data)] :=
  responses_append s.trace [.response res data]

/-- An event that is no response adds none. -/
theorem responses_append_event {e : Obs} (he : responses [e] = []) (tr : List Obs) :
    responses (tr ++ [e]) = responses tr := by
  rw [responses_append, he, List.append_nil]

theorem writeBlind_answers : WriteBlind State.answers := ⟨fun _ _ _ _ _ => responses_append_event rfl _⟩

/-! ### MD_ADVANCE (R163, R204) -/

/-- A tick on an unconfigured or unbound display is a no-op (R163). -/
theorem exec_mdAdvance_unbound {s : State} (hctx : s.inTick = true)
    (hunbound : s.md.configured = false ∨ s.md.portsSet = false) : exec .mdAdvance s = .next s := by
  have hguard : (s.md.configured && s.md.portsSet) = false := Bool.and_eq_false_iff.mpr hunbound
  simp [exec, execMdAdvance, inTickContext, hctx, hguard]

/-- A refresh emits pin writes alone (R204). -/
theorem execMdAdvance_keeps_answers (s : State) : Keeps State.answers s (execMdAdvance s) :=
  writeBlind_answers.execMdAdvance (fun _ _ _ => rfl) s

/-- Settles O42: unbound it is a no-op, and bound or not it adds no response. -/
theorem advanceNeverReports : Obligations.AdvanceNeverReports :=
  ⟨fun _ => exec_mdAdvance_unbound,
    fun s t h => (execMdAdvance_keeps_answers s).eq t h⟩

/-- The state with the round-robin, the output latches and the trace blanked: all that MD_ADVANCE has no write to. -/
def State.besidesRefresh (s : State) : State :=
  { s with md := { s.md with idx := 0, activeDigit := none }, outs := [], trace := [] }

theorem writeBlind_besidesRefresh : WriteBlind State.besidesRefresh := ⟨fun _ _ _ _ _ => rfl⟩

/-- States that differ at most in what a refresh writes: one is the other with its own round-robin, latches and trace. -/
theorem eq_of_besidesRefresh_eq {s t : State} (h : t.besidesRefresh = s.besidesRefresh) :
    t = { s with
      md := { s.md with idx := t.md.idx, activeDigit := t.md.activeDigit }
      outs := t.outs
      trace := t.trace } :=
  congrArg (fun u : State => { u with
    md := { u.md with idx := t.md.idx, activeDigit := t.md.activeDigit }
    outs := t.outs
    trace := t.trace }) h

/-- What MD_ADVANCE writes: the round-robin, output latches and the trace (R39). -/
theorem exec_mdAdvance_frame {s t : State} (h : exec .mdAdvance s = .next t) :
    t = { s with
      md := { s.md with idx := t.md.idx, activeDigit := t.md.activeDigit }
      outs := t.outs
      trace := t.trace } :=
  eq_of_besidesRefresh_eq ((writeBlind_besidesRefresh.execMdAdvance (fun _ _ _ => rfl) s).eq t h)

/-! ### The tick step (R205–R209) -/

/-- A tick taken is MD_ADVANCE between entering and leaving TICK context (R206). -/
theorem tickStep_of_ready {s : State} (hready : s.tickReady = true) :
    tickStep s = andThen (exec .mdAdvance (enterTick s)) fun u => .next (leaveTick u) :=
  if_pos hready

/-- Settles O48: entering and leaving TICK context write the context bits alone, and MD_ADVANCE keeps its frame. -/
theorem tickChangesNoMainState : Obligations.TickChangesNoMainState := by
  intro s t hready hturn
  obtain ⟨u, hadvance, hleave⟩ := andThen_eq_next.mp ((tickStep_of_ready hready).symm.trans hturn)
  obtain rfl : leaveTick u = t := (next_inj ..).mp hleave
  exact congrArg leaveTick (exec_mdAdvance_frame hadvance)

theorem step_of_turn_strobe {s : State} (h : s.turn = .strobe) : step s = .next (strobe s.popTurn) := by
  rw [step, takeTurn, h, runTurn]

theorem strobe_tickReady {s : State} (hmask : s.masked = false) : (strobe s).tickReady = true := by
  rw [State.tickReady, strobe_tickPending, strobe_masked, hmask]
  rfl

/-- Settles O9: a strobe sets the pending bit whatever it was, and the tick step that takes it leaves it clear. -/
theorem strobesCoalesce : Obligations.StrobesCoalesce :=
  ⟨fun _ => step_of_turn_strobe, fun _ => rfl,
    fun s t hmask h =>
      congrArg State.tickPending (tickChangesNoMainState _ t (strobe_tickReady (s := strobe s) hmask) h)⟩

end Sys2Proof.Machine
end

section
/-! SUPPORT. Error responses (R10, R202): which operations answer nothing, and the three ways an instruction can answer. -/

namespace Sys2Proof.Machine

/-! ### Pin operations answer nothing -/

theorem gpioSetDir_keeps_answers (u : Owner) (base : PortBase) (mask dirs : Byte) (s : State) :
    Keeps State.answers s (gpioSetDir u base mask dirs s) := by
  refine ⟨fun t ht => ?_⟩
  obtain ⟨-, rfl⟩ := gpioSetDir_eq_next.mp ht
  exact responses_append_event rfl s.trace

theorem gpioRead_keeps_answers (u : Owner) (base : PortBase) (pin : Nat) (s : State) :
    Keeps State.answers s (gpioRead u base pin s) := by
  refine ⟨fun t ht => ?_⟩
  obtain ⟨-, rfl⟩ := gpioRead_eq_next.mp ht
  exact responses_append_event rfl s.trace

theorem portsInit_keeps_answers (s : State) : Keeps State.answers s (portsInit s) :=
  (writeBlind_answers.gpioWriteRun ..).andThen fun _ =>
  (gpioSetDir_keeps_answers ..).andThen fun _ =>
  (writeBlind_answers.gpioWriteRun ..).andThen fun _ =>
  gpioSetDir_keeps_answers ..

theorem ksPinInit_keeps_answers (s : State) : Keeps State.answers s (ksPinInit s) :=
  (writeBlind_answers.gpioWriteRun ..).andThen fun _ =>
  (gpioSetDir_keeps_answers ..).andThen fun _ =>
  (gpioSetDir_keeps_answers ..).andThen fun _ =>
  writeBlind_answers.gpioWriteRun ..

/-! ### RAM operations emit nothing -/

theorem Keeps.answers {s : State} {o : Out} (h : Keeps State.trace s o) : Keeps State.answers s o :=
  ⟨fun t ht => congrArg responses (h.eq t ht)⟩

theorem keyMapWrite_keeps_trace (i : Nat) (v : Byte) (s : State) : Keeps State.trace s (keyMapWrite i v s) := by
  refine ⟨fun t ht => ?_⟩
  obtain ⟨-, rfl⟩ := keyMapWrite_eq_next.mp ht
  rfl

theorem keyMapLoad_keeps_trace (i : Nat) (vs : List Byte) (s : State) :
    Keeps State.trace s (keyMapLoad i vs s) := by
  induction vs generalizing i s with
  | nil => exact .next rfl
  | cons v rest ih => exact (keyMapWrite_keeps_trace ..).andThen fun s1 => ih (i + 1) s1

theorem writeEntry_keeps_trace (vals pts : List Byte) (b : Bool) (i : Nat) (s : State) :
    Keeps State.trace s (writeEntry vals pts b i s) := by
  unfold writeEntry
  split
  · refine ⟨fun t ht => ?_⟩
    obtain ⟨-, rfl⟩ := bufWrite_eq_next.mp ht
    rfl
  · exact .fault _

theorem writeEntries_keeps_trace (vals pts : List Byte) (b : Bool) (todo i : Nat) (s : State) :
    Keeps State.trace s (writeEntries vals pts b todo i s) := by
  induction todo generalizing i s with
  | zero => exact .next rfl
  | succ n ih => exact (writeEntry_keeps_trace ..).andThen fun s1 => ih (i + 1) s1

/-! ### The three ways an instruction answers (R10, R92, R202)

A calculus beside that of `Keeps`: each rule says of one way to build an outcome how it answers. -/

/-- From `s` to `t` no response came, or Ok as the last thing done, or an error response as the only thing done. -/
inductive Answered (s t : State) : Prop
  | silent (h : t.answers = s.answers)
  | ok (data : Byte) (h : t.answers = s.answers ++ [(.ok, data)])
  | error (kind : Result) (data : Byte) (h : t = respond kind data s)

/-- The outcome's next state, where there is one, has answered `s` in one of the three ways. -/
structure Answers (s : State) (o : Out) : Prop where
  of : ∀ t, o = .next t → Answered s t

section
variable {s : State}

theorem Answers.of_keeps {o : Out} (h : Keeps State.answers s o) : Answers s o := ⟨fun t ht => .silent (h.eq t ht)⟩

theorem Answers.refused (r : Refusal) : Answers s (.refused r) := ⟨fun _ h => nomatch h⟩

/-- `raise` (R10). -/
theorem Answers.raise (kind : Result) (data : Byte) : Answers s (raise kind data s) :=
  ⟨fun _ ht => .error kind data ((next_inj ..).mp ht).symm⟩

/-- `respond(Ok, data)` after work that answered nothing. -/
theorem Answers.respond_ok (data : Byte) {u : State} (hu : u.answers = s.answers) :
    Answers s (.next (respond .ok data u)) := by
  refine ⟨fun _ ht => .ok data ?_⟩
  obtain rfl := (next_inj ..).mp ht
  rw [answers_respond, hu]

/-- Work that answers nothing, and then something that answers. -/
theorem Answers.andThen {o : Out} {f : State → Out} (ho : Keeps State.answers s o)
    (hf : ∀ u, u.answers = s.answers → Answers s (f u)) : Answers s (andThen o f) := by
  refine ⟨fun t ht => ?_⟩
  obtain ⟨u, hu, hfu⟩ := andThen_eq_next.mp ht
  exact (hf u (ho.eq u hu)).of t hfu

theorem Answers.inMain {o : Out} (h : Answers s o) : Answers s (inMain s o) := by
  unfold Machine.inMain
  split
  · exact .refused _
  · exact h

end

/-! ### How each command answers -/

theorem execKsConfigure_answers (geom k : Byte) (lines cols : GroupOp) (map : List Byte) (s : State) :
    Answers s (execKsConfigure geom k lines cols map s) := by
  refine Answers.inMain ?_
  split
  · exact .raise _ _
  · next g _ =>
    have hload : Keeps State.answers s (keyMapLoad 0 map (ksCommitRegs g k lines cols s)) :=
      (keyMapLoad_keeps_trace ..).answers.congr rfl
    exact .andThen hload fun s1 h1 => .andThen ((ksPinInit_keeps_answers s1).congr h1) fun s2 h2 => .respond_ok _ h2

theorem execKsPoll_answers (s : State) : Answers s (execKsPoll s) := by
  refine Answers.inMain ?_
  cases s.ks.phase with
  | idle =>
    show Answers s (pollEntry s)
    unfold pollEntry
    split
    · exact .of_keeps (.next rfl)
    · exact .raise _ _
  | drive l => exact .of_keeps ((writeBlind_answers.gpioWrite ..).andThen fun _ => .next rfl)
  | settle l => exact .of_keeps (.next rfl)
  | sample l c => exact .of_keeps ((gpioRead_keeps_answers ..).andThen fun _ => .next rfl)
  | release l => exact .of_keeps ((writeBlind_answers.gpioWrite ..).andThen fun _ => .next rfl)
  | decide =>
    show Answers s (pollDecide s)
    unfold pollDecide
    split
    · exact .of_keeps (.fault _)
    · exact .respond_ok _ rfl

theorem execMdConfigure_answers (ndig pol : Byte) (s : State) : Answers s (execMdConfigure ndig pol s) := by
  refine Answers.inMain ?_
  split
  · exact .raise _ _
  · exact .andThen (writeBlind_answers.deselectBound s) fun _ h1 => .respond_ok _ h1

theorem execMdSetPorts_answers (data ctrl : GroupOp) (act : Byte) (s : State) :
    Answers s (execMdSetPorts data ctrl act s) := by
  refine Answers.inMain ?_
  split
  · exact .raise _ _
  · exact .andThen (writeBlind_answers.deselectBound s) fun _ h1 =>
      .andThen ((portsInit_keeps_answers _).congr h1) fun _ h2 => .respond_ok _ h2

theorem execMdUpdate_answers (vals pts : List Byte) (s : State) : Answers s (execMdUpdate vals pts s) := by
  refine Answers.inMain ?_
  split
  · have hcopy : Keeps State.answers s (writeEntries vals pts s.md.sel s.md.n 0 (setMasked true s)) :=
      (writeEntries_keeps_trace ..).answers.congr rfl
    exact .andThen hcopy fun _ h1 => .respond_ok _ h1
  · cases s.md.uphase with
    | idle =>
      show Answers s (updEntry vals pts s)
      unfold updEntry
      split
      · exact .raise _ _
      · split <;> exact .of_keeps (.next rfl)
    | write i => exact .of_keeps ((writeEntry_keeps_trace ..).answers.andThen fun _ => .next rfl)
    | commit => exact .respond_ok _ rfl

theorem exec_answers (i : Instr) (s : State) : Answers s (exec i s) := by
  cases i with
  | ksConfigure geom k lines cols map => exact execKsConfigure_answers geom k lines cols map s
  | ksPoll => exact execKsPoll_answers s
  | mdConfigure ndig pol => exact execMdConfigure_answers ndig pol s
  | mdSetPorts data ctrl act => exact execMdSetPorts_answers data ctrl act s
  | mdUpdate vals pts => exact execMdUpdate_answers vals pts s
  | mdAdvance => exact .of_keeps (execMdAdvance_keeps_answers s)

/-- Settles O50: of the three ways to answer, only the error response has a result other than Ok, and there it is the only
thing done. -/
theorem errorsChangeNothing : Obligations.ErrorsChangeNothing := by
  intro i s t res data hexec hresp hres
  change t.answers = s.answers ++ [(res, data)] at hresp
  cases (exec_answers i s).of t hexec with
  | silent h => simp [h] at hresp
  | ok data' h =>
    rw [h] at hresp
    obtain ⟨rfl, -⟩ : Result.ok = res ∧ data' = data := by simpa using hresp
    exact absurd rfl hres
  | error kind data' h =>
    rw [h, answers_respond] at hresp
    obtain ⟨rfl, rfl⟩ : kind = res ∧ data' = data := by simpa using hresp
    exact h

end Sys2Proof.Machine
end

section
/-! SUPPORT. The codec (R82–R97): the two bytes of a base, what each payload decoder accepts, and that decoding and encoding
undo each other. -/

namespace Sys2Proof.Machine

/-! ### The two bytes of a base, and length bytes (R67, R84, R85, R89) -/

/-- A base is its two bytes, the less significant one first. -/
@[simp] theorem u16le_lowByte_highByte (b : PortBase) : u16le (lowByte b) (highByte b) = b :=
  (BitVec.extractLsb'_append_extractLsb'_eq_extractLsb' (start₁ := 0) (len₁ := 8) rfl).trans BitVec.extractLsb'_eq_self

@[simp] theorem lowByte_u16le (lo hi : Byte) : lowByte (u16le lo hi) = lo := BitVec.extractLsb'_append_eq_right

@[simp] theorem highByte_u16le (lo hi : Byte) : highByte (u16le lo hi) = hi := BitVec.extractLsb'_append_eq_left

/-- A descriptor's three payload bytes, read back from a base put together from two of them. -/
@[simp] theorem encodeGroup_u16le (lo hi first : Byte) : encodeGroup ⟨u16le lo hi, first⟩ = [lo, hi, first] := by
  simp [encodeGroup]

theorem lengthFits_iff {bs : List Byte} : lengthFits bs = true ↔ bs.length ≤ 255 := by simp [lengthFits]

/-- The length byte of a sequence that fits it is its length. -/
theorem toNat_lengthByte {bs : List Byte} (h : lengthFits bs = true) : (lengthByte bs).toNat = bs.length := by
  rw [lengthFits_iff] at h
  rw [lengthByte, BitVec.toNat_ofNat]
  omega

/-- A sequence as long as a byte says has that byte for its length byte, and fits it. -/
theorem lengthByte_eq {bs : List Byte} {m : Byte} (h : bs.length = m.toNat) :
    lengthByte bs = m ∧ lengthFits bs = true := by
  rw [lengthFits_iff, h, lengthByte, h, BitVec.ofNat_toNat, BitVec.setWidth_eq]
  exact ⟨rfl, Nat.le_of_lt_succ m.isLt⟩

/-! ### Decoding an encoding (R97) -/

theorem decode_encode_ksConfigure (geom k : Byte) (lines cols : GroupOp) {map : List Byte}
    (hmap : lengthFits map = true) :
    decode .command (encode (.ksConfigure geom k lines cols map)) = .ok (.ksConfigure geom k lines cols map) := by
  simp [decode, encode, encodeFrame, Frame.bytes, encodeGroup, decodeFrame, decodeCommand, decodeKsConfigure,
    toNat_lengthByte hmap]

theorem decode_encode_mdSetPorts (data ctrl : GroupOp) (act : Byte) :
    decode .command (encode (.mdSetPorts data ctrl act)) = .ok (.mdSetPorts data ctrl act) := by
  simp [decode, encode, encodeFrame, Frame.bytes, encodeGroup, decodeFrame, decodeCommand, decodeMdSetPorts]

theorem decode_encode_mdUpdate {vals pts : List Byte} (hvals : lengthFits vals = true) (hpts : lengthFits pts = true) :
    decode .command (encode (.mdUpdate vals pts)) = .ok (.mdUpdate vals pts) := by
  simp [decode, encode, encodeFrame, Frame.bytes, decodeFrame, decodeCommand, decodeMdUpdate,
    toNat_lengthByte hvals, toNat_lengthByte hpts]

/-- Settles O1, an instruction at a time. -/
theorem decodeOfEncode : Obligations.DecodeOfEncode := by
  intro i hwf
  cases i with
  | ksConfigure geom k lines cols map => exact decode_encode_ksConfigure geom k lines cols hwf
  | ksPoll => rfl
  | mdConfigure ndig pol => rfl
  | mdSetPorts data ctrl act => exact decode_encode_mdSetPorts data ctrl act
  | mdUpdate vals pts =>
    obtain ⟨hvals, hpts⟩ := (Bool.and_eq_true ..).mp hwf
    exact decode_encode_mdUpdate hvals hpts
  | mdAdvance => rfl

/-! ### Encoding what was decoded (R97) -/

/-- `f` is the frame of `i`, which is well-formed and belongs to the port. -/
structure FrameOf (port : Port) (i : Instr) (f : Frame) : Prop where
  wf : i.wf = true
  port_eq : i.port = port
  frame_eq : encodeFrame i = f

theorem frameOf_decodeKsConfigure {p : List Byte} {i : Instr} (h : decodeKsConfigure p = .ok i) :
    FrameOf .command i ⟨0x01, p⟩ := by
  unfold decodeKsConfigure at h
  split at h
  · split at h
    · next hmap =>
      cases h
      obtain ⟨hbyte, hfits⟩ := lengthByte_eq hmap
      exact ⟨hfits, rfl, by simp [encodeFrame, hbyte]⟩
    · cases h
  · cases h

theorem frameOf_decodeKsPoll {p : List Byte} {i : Instr} (h : decodeKsPoll p = .ok i) :
    FrameOf .command i ⟨0x02, p⟩ := by
  obtain rfl := eq_nil_of_decodeKsPoll h
  cases h
  exact ⟨rfl, rfl, rfl⟩

theorem frameOf_decodeMdConfigure {p : List Byte} {i : Instr} (h : decodeMdConfigure p = .ok i) :
    FrameOf .command i ⟨0x11, p⟩ := by
  unfold decodeMdConfigure at h
  split at h
  · cases h
    exact ⟨rfl, rfl, rfl⟩
  · cases h

theorem frameOf_decodeMdSetPorts {p : List Byte} {i : Instr} (h : decodeMdSetPorts p = .ok i) :
    FrameOf .command i ⟨0x12, p⟩ := by
  unfold decodeMdSetPorts at h
  split at h
  · cases h
    exact ⟨rfl, rfl, by simp [encodeFrame]⟩
  · cases h

theorem frameOf_decodeMdUpdate {p : List Byte} {i : Instr} (h : decodeMdUpdate p = .ok i) :
    FrameOf .command i ⟨0x13, p⟩ := by
  unfold decodeMdUpdate at h
  split at h
  · next nv np rest =>
    split at h
    · next hrest =>
      cases h
      obtain ⟨hnv, hvals⟩ := lengthByte_eq (bs := rest.take nv.toNat) (m := nv) (by rw [List.length_take]; omega)
      obtain ⟨hnp, hpts⟩ := lengthByte_eq (bs := rest.drop nv.toNat) (m := np) (by rw [List.length_drop]; omega)
      exact ⟨(Bool.and_eq_true ..).mpr ⟨hvals, hpts⟩, rfl, by simp [encodeFrame, hnv, hnp]⟩
    · cases h
  · cases h

theorem frameOf_decodeMdAdvance {p : List Byte} {i : Instr} (h : decodeMdAdvance p = .ok i) :
    FrameOf .tick i ⟨0x14, p⟩ := by
  cases p with
  | nil => cases h; exact ⟨rfl, rfl, rfl⟩
  | cons _ _ => cases h

/-- A frame that decodes on the command port is the frame of what it decodes to. -/
theorem frameOf_decodeCommand {f : Frame} {i : Instr} (h : decodeCommand f = .ok i) : FrameOf .command i f := by
  obtain ⟨op, p⟩ := f
  unfold decodeCommand at h
  split_ifs at h with h01 h02 h11 h12 h13
  · subst h01; exact frameOf_decodeKsConfigure h
  · subst h02; exact frameOf_decodeKsPoll h
  · subst h11; exact frameOf_decodeMdConfigure h
  · subst h12; exact frameOf_decodeMdSetPorts h
  · subst h13; exact frameOf_decodeMdUpdate h

/-- A frame that decodes on the tick input is the frame of what it decodes to. -/
theorem frameOf_decodeTick {f : Frame} {i : Instr} (h : decodeTick f = .ok i) : FrameOf .tick i f := by
  obtain ⟨op, p⟩ := f
  unfold decodeTick at h
  split_ifs at h with h14
  subst h14
  exact frameOf_decodeMdAdvance h

theorem frameOf_decodeFrame {port : Port} {f : Frame} {i : Instr} (h : decodeFrame port f = .ok i) :
    FrameOf port i f := by
  cases port with
  | command => exact frameOf_decodeCommand h
  | tick => exact frameOf_decodeTick h

/-- Settles O2: the bytes are a frame, and a frame that decodes is the frame of its instruction. -/
theorem encodeOfDecode : Obligations.EncodeOfDecode := by
  intro port bs i h
  cases bs with
  | nil => cases h
  | cons op payload =>
    obtain ⟨hwf, hport, hframe⟩ := frameOf_decodeFrame (f := ⟨op, payload⟩) h
    exact ⟨hwf, hport, congrArg Frame.bytes hframe⟩

/-- The frame of a well-formed command decodes to it on the command port. -/
theorem decodeFrame_encodeFrame {i : Instr} (hwf : i.wf = true) (hport : i.port = .command) :
    decodeFrame .command (encodeFrame i) = .ok i := by
  have h := decodeOfEncode i hwf
  rwa [hport] at h

/-! ### Legal frames (R83, R94) -/

theorem decodeKsConfigure_of_length {p : List Byte} (h : p.length = 9 + (p.getD 8 0).toNat) :
    ∃ i, decodeKsConfigure p = .ok i := by
  rcases p with _ | ⟨_, _ | ⟨_, _ | ⟨_, _ | ⟨_, _ | ⟨_, _ | ⟨_, _ | ⟨_, _ | ⟨_, _ | ⟨m, map⟩⟩⟩⟩⟩⟩⟩⟩⟩
  case cons.cons.cons.cons.cons.cons.cons.cons.cons =>
    refine ⟨_, if_pos ?_⟩
    simp only [List.length_cons, List.getD_cons_succ, List.getD_cons_zero] at h
    omega
  all_goals simp only [List.length_cons, List.length_nil] at h; omega

theorem decodeMdConfigure_of_length {p : List Byte} (h : p.length = 2) : ∃ i, decodeMdConfigure p = .ok i := by
  obtain ⟨a, b, rfl⟩ := List.length_eq_two.mp h
  exact ⟨_, rfl⟩

theorem decodeMdSetPorts_of_length {p : List Byte} (h : p.length = 7) : ∃ i, decodeMdSetPorts p = .ok i := by
  rcases p with _ | ⟨_, _ | ⟨_, _ | ⟨_, _ | ⟨_, _ | ⟨_, _ | ⟨_, _ | ⟨_, _ | ⟨_, _⟩⟩⟩⟩⟩⟩⟩⟩
  case cons.cons.cons.cons.cons.cons.cons.nil => exact ⟨_, rfl⟩
  all_goals simp only [List.length_cons, List.length_nil] at h; omega

theorem decodeMdUpdate_of_length {p : List Byte} (h : p.length = 2 + (p.getD 0 0).toNat + (p.getD 1 0).toNat) :
    ∃ i, decodeMdUpdate p = .ok i := by
  rcases p with _ | ⟨nv, _ | ⟨np, rest⟩⟩
  case cons.cons =>
    refine ⟨_, if_pos ?_⟩
    simp only [List.length_cons, List.getD_cons_succ, List.getD_cons_zero] at h
    omega
  all_goals simp only [List.length_cons, List.length_nil] at h; omega

/-- A legal frame decodes, by the length its opcode gives. -/
theorem decodeFrame_of_legalFrame {f : Frame} (h : LegalFrame f) : ∃ i, decodeFrame .command f = .ok i := by
  obtain ⟨op, p⟩ := f
  obtain ⟨hop, hlen⟩ := h
  simp only [commandOpcodes, List.mem_cons, List.not_mem_nil, or_false] at hop
  rcases hop with rfl | rfl | rfl | rfl | rfl
  · exact decodeKsConfigure_of_length hlen
  · obtain rfl := List.length_eq_zero_iff.mp hlen
    exact ⟨_, rfl⟩
  · exact decodeMdConfigure_of_length hlen
  · exact decodeMdSetPorts_of_length hlen
  · exact decodeMdUpdate_of_length hlen

/-- Settles O4: a legal frame decodes, and what decodes is the frame of its instruction. -/
theorem legalFramesDecode : Obligations.LegalFramesDecode := by
  intro f hlegal
  obtain ⟨i, hdec⟩ := decodeFrame_of_legalFrame hlegal
  exact ⟨i, hdec, (frameOf_decodeFrame hdec).frame_eq⟩

/-- Settles O3: each word is written out, and the decoder evaluates on it. -/
theorem writtenWordsDecode : Obligations.WrittenWordsDecode :=
  ⟨rfl, rfl, rfl, rfl, rfl, rfl, rfl⟩

end Sys2Proof.Machine
end

section
/-! SUPPORT. Steps and contexts (R72, R80, R205–R213, R230, R231): what a step is at each turn, the refusals, and the answers of
unconfigured units. -/

namespace Sys2Proof.Machine

/-! ### MAIN's turn (R80, R97) -/

theorem issue_of_latch {s : State} {f : Frame} (h : s.latch = some f) : s.issue = s := by
  simp only [State.issue, h]

theorem issue_of_cmds {s : State} {f : Frame} {rest : List Frame} (hlatch : s.latch = none) (hcmds : s.cmds = f :: rest) :
    s.issue = { s with latch := some f, cmds := rest } := by
  simp only [State.issue, hlatch, hcmds]

theorem issue_of_nothing {s : State} (hlatch : s.latch = none) (hcmds : s.cmds = []) : s.issue = s := by
  simp only [State.issue, hlatch, hcmds]

theorem mainStep_of_decode {s : State} {f : Frame} {i : Instr} (hlatch : s.issue.latch = some f)
    (hdec : decodeFrame .command f = .ok i) : mainStep s = exec i s.issue := by
  simp only [mainStep, hlatch, hdec]

theorem mainStep_of_no_latch {s : State} (h : s.issue.latch = none) : mainStep s = .next s.issue := by
  simp only [mainStep, h]

/-- Settles O6, from what MAIN's step is and what issuing a frame does. -/
theorem stepRunsLatchedCommand : Obligations.StepRunsLatchedCommand := by
  refine ⟨fun s f i hturn hlatch hdec => ?_, fun _ => rfl, fun _ _ => issue_of_latch, fun _ _ _ => issue_of_cmds,
    fun _ => issue_of_nothing, fun s hturn hlatch hcmds => ?_⟩
  · rw [step_of_turn_main hturn, mainStep_of_decode hlatch hdec]
  · have hissue : s.popTurn.issue = s.popTurn := issue_of_nothing hlatch hcmds
    rw [step_of_turn_main hturn, mainStep_of_no_latch (by rw [hissue, popTurn_latch, hlatch]), hissue]

/-! ### TICK's turn (R206, R207) -/

theorem step_of_turn_tick {s : State} (h : s.turn = .tick) : step s = tickStep s.popTurn := by
  rw [step, takeTurn, h, runTurn]

theorem tickReady_iff {s : State} : s.tickReady = true ↔ s.tickPending = true ∧ s.masked = false := by
  simp [State.tickReady]

theorem tickStep_of_not_ready {s : State} (h : s.tickReady = false) : tickStep s = .next s := by
  simp [tickStep, h]

/-- Settles O7: with a tick pending and unmasked TICK has a step. -/
theorem stepTakesPendingTick : Obligations.StepTakesPendingTick := by
  intro s hturn hpending hmask
  have hready : s.popTurn.tickReady = true := tickReady_iff.mpr ⟨hpending, hmask⟩
  rw [step_of_turn_tick hturn, tickStep_of_ready hready]
  rfl

/-- Settles O8: masked, or with no tick pending, TICK has no step. -/
theorem maskedTickHasNoStep : Obligations.MaskedTickHasNoStep := by
  intro s hturn hidle
  have hready : s.popTurn.tickReady = false := by
    rcases hidle with hmask | hpending
    · simp [State.tickReady, hmask]
    · simp [State.tickReady, hpending]
  rw [step_of_turn_tick hturn, tickStep_of_not_ready hready]

/-! ### A reset (R230) -/

theorem step_of_turn_reset {s : State} {pinsKept : Bool} (h : s.turn = .reset pinsKept) :
    step s = .next (systemReset pinsKept s.popTurn) := by
  rw [step, takeTurn, h, runTurn]

/-- Settles O10: the registers by the reset's definition, and the pins by its form. -/
theorem resetTurnResetsRegisters : Obligations.ResetTurnResetsRegisters := by
  intro s pinsKept hturn
  refine ⟨_, step_of_turn_reset hturn, rfl, rfl, rfl, rfl, rfl, rfl, rfl, rfl, rfl, rfl, rfl, ?_, ?_⟩
  · rintro rfl base pin
    exact ⟨rfl, rfl⟩
  · rintro rfl base pin
    exact ⟨pinDir_of_dirs_nil rfl base pin, pinOut_of_outs_nil rfl base pin⟩

/-! ### Contexts (R213) -/

theorem inMain_of_inTick {s : State} (hctx : s.inTick = true) (body : Out) : inMain s body = .refused .contextMisuse :=
  if_pos hctx

/-- Settles O47: MD_ADVANCE runs in TICK context alone, and every command outside it alone. -/
theorem contextMisuseIsRefused : Obligations.ContextMisuseIsRefused := by
  refine fun s => ⟨fun hctx => ?_, fun i hctx hport => ?_⟩
  · simp [exec, execMdAdvance, inTickContext, hctx]
  · cases i with
    | ksConfigure geom k lines cols map => exact inMain_of_inTick hctx _
    | ksPoll => exact inMain_of_inTick hctx _
    | mdConfigure ndig pol => exact inMain_of_inTick hctx _
    | mdSetPorts data ctrl act => exact inMain_of_inTick hctx _
    | mdUpdate vals pts => exact inMain_of_inTick hctx _
    | mdAdvance => cases hport

/-! ### UPD_ENTRY and the unconfigured units (R157, R231) -/

section
variable {s : State} {vals pts : List Byte} (hctx : s.inTick = false) (hphase : s.md.uphase = .idle)
  (hmask : s.md.maskedDue = false)
include hctx hphase hmask

theorem exec_mdUpdate_entry : exec (.mdUpdate vals pts) s = updEntry vals pts s := by
  simp [exec, execMdUpdate, inMain_of_not_inTick hctx, hmask, hphase]

/-- A failing check ends MD_UPDATE with its kind. -/
theorem answersError_mdUpdate {kind : Result} (hcheck : updateValidate s.md vals pts = .error kind) :
    AnswersError (.mdUpdate vals pts) s kind 0x00 := by
  rw [AnswersError, exec_mdUpdate_entry hctx hphase hmask, updEntry, hcheck]
  rfl

end

theorem updateValidate_of_not_configured {md : Md} (h : md.configured = false) (vals pts : List Byte) :
    updateValidate md vals pts = .error .notConfigured := by
  simp [updateValidate, h]

theorem updateValidate_of_length {md : Md} {vals pts : List Byte} (hconf : md.configured = true)
    (hlen : vals.length ≠ md.n ∨ pts.length ≠ md.n) : updateValidate md vals pts = .error .invalidArgument := by
  simp only [updateValidate, hconf, Bool.not_true, Bool.false_eq_true, if_false, if_pos hlen]

/-- The checks pass exactly if the unit is configured and both sequences have md.N bytes. -/
theorem updateValidate_eq_ok {md : Md} {vals pts : List Byte} {u : Unit} :
    updateValidate md vals pts = .ok u ↔ md.configured = true ∧ vals.length = md.n ∧ pts.length = md.n := by
  cases hconf : md.configured with
  | false => simp [updateValidate_of_not_configured hconf]
  | true =>
    by_cases hlen : vals.length ≠ md.n ∨ pts.length ≠ md.n
    · simpa [updateValidate_of_length hconf hlen, imp_iff_not_or] using hlen
    · obtain ⟨hvals, hpts⟩ := not_or.mp hlen
      simp [updateValidate, hconf, not_not.mp hvals, not_not.mp hpts]

section
variable {s : State} {vals pts : List Byte} (hconf : s.md.configured = true) (hvals : vals.length = s.md.n)
  (hpts : pts.length = s.md.n)
include hconf hvals hpts

/-- A legal update under SWAP goes to WRITE(0). -/
theorem updEntry_of_swap (hscheme : s.params.cdcScheme = .swap) :
    updEntry vals pts s = .next (setUPhase (.write 0) s) := by
  simp only [updEntry, updateValidate_eq_ok (u := ()).mpr ⟨hconf, hvals, hpts⟩, hscheme]

/-- A legal update under MASK goes to UPD_MASKED. -/
theorem updEntry_of_mask (hscheme : s.params.cdcScheme = .mask) :
    updEntry vals pts s = .next (setMaskedDue true s) := by
  simp only [updEntry, updateValidate_eq_ok (u := ()).mpr ⟨hconf, hvals, hpts⟩, hscheme]

end

/-- Settles O37: the checks decide, and a legal update goes where its scheme says. -/
theorem updateEntry_branches : Obligations.UpdateEntry := by
  intro s vals pts hctx hphase hmask
  refine ⟨fun hconf => ?_, fun hconf hlen => ?_, fun hconf hvals hpts hscheme => ?_, fun hconf hvals hpts hscheme => ?_⟩
  · exact answersError_mdUpdate hctx hphase hmask (updateValidate_of_not_configured hconf vals pts)
  · exact answersError_mdUpdate hctx hphase hmask (updateValidate_of_length hconf hlen)
  · exact (exec_mdUpdate_entry hctx hphase hmask).trans (updEntry_of_swap hconf hvals hpts hscheme)
  · exact (exec_mdUpdate_entry hctx hphase hmask).trans (updEntry_of_mask hconf hvals hpts hscheme)

/-- Settles O12: each command's first check is the unit's configured bit. -/
theorem unconfiguredAnswers : Obligations.UnconfiguredAnswers := by
  intro s hks hphase hmd huphase hmask hctx
  refine ⟨(pollEntry_branches s hctx hphase).1 hks, fun data ctrl act => ?_, fun vals pts => ?_, ?_⟩
  · exact answersError_mdSetPorts hctx (portsValidate_of_not_configured hmd)
  · exact answersError_mdUpdate hctx huphase hmask (updateValidate_of_not_configured hmd vals pts)
  · exact exec_mdAdvance_unbound rfl (.inl hmd)

/-! ### The reset state (R40) -/

/-- Settles O51: nothing is configured, bound or under way, and every store lists nothing. -/
theorem resetMeetsInv : Obligations.ResetMeetsInv := by
  have hram : State.reset.RamInv :=
    ⟨Memory.wf_nil, fun _ h => absurd h List.not_mem_nil, Memory.wf_nil, fun _ h => absurd h List.not_mem_nil, List.Pairwise.nil, List.Pairwise.nil⟩
  have hks : State.reset.KsInv := fun h => nomatch h
  have hscan : State.reset.ScanInv := ⟨rfl, rfl, fun h => absurd rfl h⟩
  have hmd : State.reset.MdInv := ⟨(fun h => nomatch h), rfl, fun h => nomatch h⟩
  have hdisjoint : State.reset.UnitsDisjoint := fun h => nomatch h
  have hupdate : State.reset.UpdateInv := ⟨rfl, fun h => nomatch h⟩
  exact ⟨hram, hks, hscan, hmd, hdisjoint, hupdate, rfl, rfl⟩

end Sys2Proof.Machine
end

section
/-! SUPPORT. Pin conflicts (R63, R75): overlap as a shared pin, where pin operations stop, and that a binding command answers
only on pins that are not the other unit's. -/

namespace Sys2Proof.Machine

/-- Settles O15: where two groups overlap, the higher of their first pins is in both. -/
theorem overlapIffSharedPin : Obligations.OverlapIffSharedPin := by
  intro g1 g2 n1 n2 h1 h2
  constructor
  · intro h
    simp only [overlap, Bool.and_eq_true, decide_eq_true_eq] at h
    obtain ⟨⟨hbase, hlt⟩, hgt⟩ := h
    refine ⟨g1.base, max g1.first.toNat g2.first.toNat, Group.has_iff.mpr ⟨rfl, by omega, by omega⟩,
      Group.has_iff.mpr ⟨hbase, by omega, by omega⟩⟩
  · rintro ⟨base, pin, hg1, hg2⟩
    by_contra h
    exact Group.not_has_of_overlap (Bool.eq_false_iff.mpr h) hg1 hg2

/-! ### Which pins are bound (R75, log entry 17) -/

theorem ksBound_iff {s : State} {base : PortBase} {pin : Nat} :
    s.ksBound base pin = true ↔ s.ks.configured = true ∧
      (s.ks.lineGrp.has s.ks.lines base pin = true ∨ s.ks.colGrp.has s.ks.cols base pin = true) := by
  simp [State.ksBound]

theorem mdBound_iff {s : State} {base : PortBase} {pin : Nat} :
    s.mdBound base pin = true ↔ s.md.configured = true ∧ s.md.portsSet = true ∧
      (s.md.dataGrp.has 8 base pin = true ∨ s.md.ctrlGrp.has s.md.n base pin = true) := by
  simp [State.mdBound, Config.portPins, and_assoc]

/-! ### Pin events on the other unit's pin -/

theorem gpioRead_conflict {u : Owner} {base : PortBase} {pin : Nat} {s : State} (h : s.conflict u base pin = true) :
    gpioRead u base pin s = .fault .pinConflict := by
  simp [gpioRead, h]

theorem gpioSetDir_conflict {u : Owner} {base : PortBase} {pin : Nat} {s : State} (h : s.conflict u base pin = true)
    (hpin : pin < 8) {mask : Byte} (dirs : Byte) (hmask : mask.getLsbD pin = true) :
    gpioSetDir u base mask dirs s = .fault .pinConflict :=
  if_pos (List.any_eq_true.mpr ⟨pin, mem_maskPins.mpr ⟨hpin, hmask⟩, h⟩)

/-- Settles O18: the pin primitives by their check, and each micro-step by the primitive it begins with. -/
theorem pinConflictFaults : Obligations.PinConflictFaults := by
  refine fun s => ⟨fun _ _ => mdBound_iff, fun _ _ => ksBound_iff,
    fun u base pin h => ⟨gpioRead_conflict h, fun lv => gpioWrite_conflict lv h,
      fun hpin mask dirs hmask => gpioSetDir_conflict h hpin dirs hmask⟩,
    fun l hctx hphase h => ?_, fun l c hctx hphase h => ?_, fun l hctx hphase h => ?_,
    fun a hctx hconf hports hdigit h => ?_⟩
  · rw [exec_ksPoll_drive hctx hphase]
    exact congrArg (andThen · _) (gpioWrite_conflict (u := .ks) _ h)
  · rw [exec_ksPoll_sample hctx hphase]
    show andThen (gpioRead .ks s.ks.colGrp.base (s.colPin c) s) _ = _
    rw [gpioRead_conflict (u := .ks) h, andThen_fault]
  · rw [exec_ksPoll_release hctx hphase]
    exact congrArg (andThen · _) (gpioWrite_conflict (u := .ks) _ h)
  · have hbreak : deselect s = .fault .pinConflict := by
      simp only [deselect, hdigit]
      exact gpioWrite_conflict (u := .md) _ h
    rw [exec_mdAdvance_bound hctx hconf hports, mdRefresh, hbreak, andThen_fault]

/-! ### A pin operation answers or stops with PinConflict -/

/-- The outcome is a next state, or the fault PinConflict. -/
def PinOutcome (o : Out) : Prop := (∃ t, o = .next t) ∨ o = .fault .pinConflict

theorem PinOutcome.next (s : State) : PinOutcome (.next s) := .inl ⟨s, rfl⟩

theorem PinOutcome.andThen {o : Out} {f : State → Out} (ho : PinOutcome o) (hf : ∀ s, PinOutcome (f s)) :
    PinOutcome (andThen o f) := by
  rcases ho with ⟨t, rfl⟩ | rfl
  · exact hf t
  · exact .inr rfl

/-- An outcome of this kind that is no next state is the fault. -/
theorem PinOutcome.eq_fault {o : Out} (ho : PinOutcome o) (hnext : ∀ t, o ≠ .next t) : o = .fault .pinConflict := by
  rcases ho with ⟨t, ht⟩ | hfault
  · exact absurd ht (hnext t)
  · exact hfault

theorem gpioWrite_outcome (u : Owner) (base : PortBase) (pin : Nat) (lv : Level) (s : State) :
    PinOutcome (gpioWrite u base pin lv s) := by
  unfold gpioWrite
  split
  · exact .inr rfl
  · exact .next _

theorem gpioSetDir_outcome (u : Owner) (base : PortBase) (mask dirs : Byte) (s : State) :
    PinOutcome (gpioSetDir u base mask dirs s) := by
  unfold gpioSetDir
  split
  · exact .inr rfl
  · exact .next _

theorem gpioWriteRun_outcome (u : Owner) (base : PortBase) (pin : Nat) (lvs : List Level) (s : State) :
    PinOutcome (gpioWriteRun u base pin lvs s) := by
  induction lvs generalizing pin s with
  | nil => exact .next s
  | cons lv rest ih => exact (gpioWrite_outcome ..).andThen fun s1 => ih (pin + 1) s1

theorem deselectBound_outcome (s : State) : PinOutcome (deselectBound s) := by
  unfold deselectBound deselect
  split
  · split
    · exact .next s
    · exact gpioWrite_outcome ..
  · exact .next s

theorem ksPinInit_outcome (s : State) : PinOutcome (ksPinInit s) :=
  (gpioWriteRun_outcome ..).andThen fun _ => (gpioSetDir_outcome ..).andThen fun _ =>
  (gpioSetDir_outcome ..).andThen fun _ => gpioWriteRun_outcome ..

theorem portsInit_outcome (s : State) : PinOutcome (portsInit s) :=
  (gpioWriteRun_outcome ..).andThen fun _ => (gpioSetDir_outcome ..).andThen fun _ =>
  (gpioWriteRun_outcome ..).andThen fun _ => gpioSetDir_outcome ..

theorem exec_ksConfigure_outcome {s : State} (hctx : s.inTick = false) (geom k : Byte) (lines cols : GroupOp)
    (map : List Byte) : PinOutcome (exec (.ksConfigure geom k lines cols map) s) := by
  cases hcheck : ksValidate s.params geom k lines cols map with
  | error kind =>
    rw [answersError_ksConfigure hctx hcheck]
    exact .next _
  | ok g =>
    obtain ⟨-, hlen, -⟩ := ksValidate_eq_ok.mp hcheck
    obtain ⟨m, hload, -⟩ := keyMapLoad_zero_spec (hlen ▸ g.keys_le) (ksCommitRegs g k lines cols s)
    rw [exec, execKsConfigure, inMain_of_not_inTick hctx, hcheck]
    simp only [hload, andThen_next]
    exact (ksPinInit_outcome _).andThen fun _ => .next _

theorem exec_mdSetPorts_outcome {s : State} (hctx : s.inTick = false) (data ctrl : GroupOp) (act : Byte) :
    PinOutcome (exec (.mdSetPorts data ctrl act) s) := by
  cases hcheck : portsValidate s.params s.md data ctrl act with
  | error kind =>
    rw [answersError_mdSetPorts hctx hcheck]
    exact .next _
  | ok lv =>
    rw [exec, execMdSetPorts, inMain_of_not_inTick hctx, hcheck]
    exact (deselectBound_outcome s).andThen fun _ => (portsInit_outcome _).andThen fun _ => .next _

/-! ### A pin operation that answers touched free pins only -/

theorem gpioWriteRun_free {u : Owner} {base : PortBase} {pin : Nat} {lvs : List Level} {s t : State}
    (h : gpioWriteRun u base pin lvs s = .next t) {i : Nat} (hi : i < lvs.length) :
    s.conflict u base (pin + i) = false := by
  induction lvs generalizing pin s i with
  | nil => cases hi
  | cons lv rest ih =>
    obtain ⟨s1, hwrite, hrest⟩ := andThen_eq_next.mp h
    obtain ⟨hfree, rfl⟩ := gpioWrite_eq_next.mp hwrite
    cases i with
    | zero => exact hfree
    | succ i =>
      rw [show pin + (i + 1) = pin + 1 + i by omega]
      exact ih hrest (Nat.lt_of_succ_lt_succ hi)

/-- One level on every pin of a group: an answer means that the group is free. -/
theorem groupFree_of_gpioWriteRun {u : Owner} {g : Group} {n : Nat} {lv : Level} {s t : State}
    (h : gpioWriteRun u g.base g.first.toNat (List.replicate n lv) s = .next t) : s.GroupFree u g n :=
  fun _ hi => gpioWriteRun_free h (by simpa using hi)

/-- Which pins are the other unit's is the same between states with the same units. -/
theorem groupFree_congr {u : Owner} {g : Group} {n : Nat} {s t : State} (h : t.units = s.units) :
    t.GroupFree u g n ↔ s.GroupFree u g n := by
  simp only [State.GroupFree, conflict_congr (congrArg Prod.fst h) (congrArg Prod.snd h)]

theorem groupFree_of_ksPinInit {s t : State} (h : ksPinInit s = .next t) :
    s.GroupFree .ks s.ks.lineGrp s.ks.lines ∧ s.GroupFree .ks s.ks.colGrp s.ks.cols := by
  obtain ⟨s1, hrun1, h⟩ := andThen_eq_next.mp h
  obtain ⟨s2, hrun2, h⟩ := andThen_eq_next.mp h
  obtain ⟨s3, hrun3, hrun⟩ := andThen_eq_next.mp h
  have hunits : s3.units = s.units :=
    ((gpioSetDir_keeps_units ..).eq _ hrun3).trans
      (((gpioSetDir_keeps_units ..).eq _ hrun2).trans ((gpioWriteRun_keeps_units ..).eq _ hrun1))
  exact ⟨groupFree_of_gpioWriteRun hrun1, (groupFree_congr hunits).mp (groupFree_of_gpioWriteRun hrun)⟩

theorem groupFree_of_portsInit {s t : State} (h : portsInit s = .next t) :
    s.GroupFree .md s.md.ctrlGrp s.md.n ∧ s.GroupFree .md s.md.dataGrp 8 := by
  obtain ⟨s1, hrun1, h⟩ := andThen_eq_next.mp h
  obtain ⟨s2, hrun2, h⟩ := andThen_eq_next.mp h
  obtain ⟨s3, hrun3, -⟩ := andThen_eq_next.mp h
  have hunits : s2.units = s.units :=
    ((gpioSetDir_keeps_units ..).eq _ hrun2).trans ((gpioWriteRun_keeps_units ..).eq _ hrun1)
  exact ⟨groupFree_of_gpioWriteRun hrun1, (groupFree_congr hunits).mp (groupFree_of_gpioWriteRun hrun3)⟩

/-- A KS_CONFIGURE that answers after its checks passed has found its pins free (R75). -/
theorem groupFree_of_exec_ksConfigure {s t : State} {geom k : Byte} {lines cols : GroupOp} {map : List Byte}
    {g : Geometry} (hctx : s.inTick = false) (hcheck : ksValidate s.params geom k lines cols map = .ok g)
    (h : exec (.ksConfigure geom k lines cols map) s = .next t) :
    s.GroupFree .ks (boundGroup lines) g.lines ∧ s.GroupFree .ks (boundGroup cols) g.cols := by
  obtain ⟨-, hlen, -⟩ := ksValidate_eq_ok.mp hcheck
  obtain ⟨m, hload, -⟩ := keyMapLoad_zero_spec (hlen ▸ g.keys_le) (ksCommitRegs g k lines cols s)
  rw [exec, execKsConfigure, inMain_of_not_inTick hctx, hcheck] at h
  simp only [hload, andThen_next] at h
  obtain ⟨_, hinit, -⟩ := andThen_eq_next.mp h
  exact groupFree_of_ksPinInit hinit

/-- An MD_SETPORTS that answers after its checks passed has found its pins free (R75). -/
theorem groupFree_of_exec_mdSetPorts {s t : State} {data ctrl : GroupOp} {act : Byte} {lv : Level}
    (hctx : s.inTick = false) (hcheck : portsValidate s.params s.md data ctrl act = .ok lv)
    (h : exec (.mdSetPorts data ctrl act) s = .next t) :
    s.GroupFree .md (boundGroup ctrl) s.md.n ∧ s.GroupFree .md (boundGroup data) 8 := by
  rw [exec, execMdSetPorts, inMain_of_not_inTick hctx, hcheck] at h
  obtain ⟨s1, hbreak, h⟩ := andThen_eq_next.mp h
  obtain ⟨_, hinit, -⟩ := andThen_eq_next.mp h
  have hunits : s1.units = s.units := (deselectBound_keeps_units s).eq _ hbreak
  have hmd : s1.md = s.md := congrArg Prod.snd hunits
  obtain ⟨hctrl, hdata⟩ := groupFree_of_portsInit hinit
  rw [← groupFree_congr hunits, ← groupFree_congr hunits, ← hmd]
  exact ⟨hctrl, hdata⟩

/-- A free group has no pin of the other unit. -/
theorem State.GroupFree.conflict_of_has {s : State} {u : Owner} {g : Group} {n : Nat} (hfree : s.GroupFree u g n)
    {base : PortBase} {pin : Nat} (hpin : g.has n base pin = true) : s.conflict u base pin = false := by
  obtain ⟨rfl, hlo, hhi⟩ := Group.has_iff.mp hpin
  simpa [Nat.add_sub_cancel' hlo] using hfree (pin - g.first.toNat) (by omega)

/-- Settles O19: a binding command answers or stops with PinConflict, and an answer means that its pins are free. -/
theorem bindingASharedPinFaults : Obligations.BindingASharedPinFaults := by
  refine ⟨fun s geom k lines cols map g pin hctx hcheck hshared => ?_, fun s data ctrl act lv pin hctx hcheck hshared => ?_⟩
  · refine (exec_ksConfigure_outcome hctx ..).eq_fault fun t ht => ?_
    obtain ⟨hlines, hcols⟩ := groupFree_of_exec_ksConfigure hctx hcheck ht
    rcases hshared with ⟨hpin, hbound⟩ | ⟨hpin, hbound⟩
    · exact absurd (hlines.conflict_of_has hpin) (Bool.not_eq_false _ ▸ hbound)
    · exact absurd (hcols.conflict_of_has hpin) (Bool.not_eq_false _ ▸ hbound)
  · refine (exec_mdSetPorts_outcome hctx ..).eq_fault fun t ht => ?_
    obtain ⟨hctrl, hdata⟩ := groupFree_of_exec_mdSetPorts hctx hcheck ht
    rcases hshared with ⟨hpin, hbound⟩ | ⟨hpin, hbound⟩
    · exact absurd (hdata.conflict_of_has hpin) (Bool.not_eq_false _ ▸ hbound)
    · exact absurd (hctrl.conflict_of_has hpin) (Bool.not_eq_false _ ▸ hbound)

end Sys2Proof.Machine
end

section
/-! SUPPORT. MD_CONFIGURE, the copy of UPD_MASKED and the events of MD_ADVANCE (R150, R151, R162, R170). -/

namespace Sys2Proof.Machine

/-! ### MD_CONFIGURE (R150, R151) -/

theorem polarityOf_eq_none {c : Byte} (h : 1 < c.toNat) : polarityOf c = none := by
  rw [polarityOf_eq, if_neg (by omega), if_neg (by omega)]

theorem mdValidate_of_count {ndig : Byte} (h : ndig.toNat < 2 ∨ 8 < ndig.toNat) (pol : Byte) :
    mdValidate ndig pol = .error .invalidGeometry :=
  if_pos h

theorem mdValidate_of_polarity_none {ndig pol : Byte} (hlo : 2 ≤ ndig.toNat) (hhi : ndig.toNat ≤ 8)
    (hpol : polarityOf pol = none) : mdValidate ndig pol = .error .invalidArgument := by
  simp only [mdValidate, hpol, if_neg (show ¬ (ndig.toNat < 2 ∨ 8 < ndig.toNat) by omega)]

/-- The checks pass exactly if the count and the polarity code are legal. -/
theorem mdValidate_eq_ok {ndig pol : Byte} {q : Polarity} :
    mdValidate ndig pol = .ok q ↔ 2 ≤ ndig.toNat ∧ ndig.toNat ≤ 8 ∧ polarityOf pol = some q := by
  by_cases hcount : ndig.toNat < 2 ∨ 8 < ndig.toNat
  · rw [mdValidate_of_count hcount]
    simp only [reduceCtorEq, false_iff]
    omega
  · cases hpol : polarityOf pol with
    | none => simp [mdValidate_of_polarity_none (ndig := ndig) (by omega) (by omega) hpol]
    | some q' =>
      simp only [mdValidate, hpol, if_neg hcount, Except.ok.injEq, Option.some.injEq]
      exact ⟨fun h => ⟨by omega, by omega, h⟩, fun ⟨_, _, h⟩ => h⟩

/-- A failing check ends MD_CONFIGURE with its kind. -/
theorem answersError_mdConfigure {s : State} {ndig pol : Byte} {kind : Result} (hctx : s.inTick = false)
    (hcheck : mdValidate ndig pol = .error kind) : AnswersError (.mdConfigure ndig pol) s kind 0x00 := by
  rw [AnswersError, exec, execMdConfigure, inMain_of_not_inTick hctx, hcheck]
  rfl

/-- Settles O34: the count is checked before the polarity code, and a failing check is answered with its kind. -/
theorem mdConfigureErrors : Obligations.MdConfigureErrors := by
  refine fun s ndig pol hctx => ⟨fun hcount => ?_, fun hlo hhi hcode => ?_⟩
  · exact answersError_mdConfigure hctx (mdValidate_of_count hcount pol)
  · exact answersError_mdConfigure hctx (mdValidate_of_polarity_none hlo hhi (polarityOf_eq_none hcode))

/-- An MD_CONFIGURE whose checks pass, with the lit select pin not bound to KS: the whole next state and its output latches. -/
theorem exec_mdConfigure_spec {s : State} {ndig pol : Byte} {q : Polarity} (hctx : s.inTick = false)
    (hcheck : mdValidate ndig pol = .ok q) (hlit : s.md.portsSet = true → s.LitFree) :
    ∃ t outs, t = { mdCommitRegs ndig.toNat q s with
        outs := outs
        latch := none
        trace := s.trace ++ (if s.md.portsSet then deselectEvents s.md else []) ++ [.response .ok 0x00] } ∧
      exec (.mdConfigure ndig pol) s = .next t ∧
      (∀ b p, t.pinOut b p =
        if s.md.portsSet then replayPin (deselectEvents s.md) b p (s.pinOut b p) else s.pinOut b p) := by
  obtain ⟨s1, hbreak, hpins, hout, hdirs⟩ := deselectBound_spec hlit
  have hframe := hpins.eq_of_dirs hdirs
  generalize s1.outs = outs at hframe
  subst hframe
  refine ⟨_, outs, rfl, ?_, hout⟩
  rw [exec, execMdConfigure, inMain_of_not_inTick hctx, hcheck]
  simp only [hbreak, andThen_next]
  rfl

/-- Settles O33, from the command's whole next state; both buffers list nothing after it. -/
theorem mdConfigureSucceeds : Obligations.MdConfigureSucceeds := by
  intro s ndig pol q hctx hlo hhi hpol hlit
  obtain ⟨_, _, rfl, hexec, hout⟩ :=
    exec_mdConfigure_spec hctx (mdValidate_eq_ok.mpr ⟨hlo, hhi, hpol⟩) (fun hports a => hlit a hports)
  exact ⟨_, hexec, rfl, rfl, rfl, rfl, fun b _ hd => bufRead_of_buf_nil rfl b hd, rfl, rfl, rfl, rfl, rfl, rfl, rfl, rfl,
    rfl, hout, rfl, rfl, rfl, rfl, rfl, rfl, rfl, rfl, rfl, rfl, rfl⟩

/-! ### The copy of UPD_MASKED (R162) -/

/-- The byte of E(d) where the latched operands reach. -/
theorem writeEntry_eq_updateByte {vals pts : List Byte} {i : Nat} (hval : i < vals.length) (hpt : i < pts.length) (b : Bool)
    (s : State) : writeEntry vals pts b i s = bufWrite b i (updateByte s.params vals pts i) s := by
  rw [writeEntry_eq_bufWrite (List.getElem?_eq_getElem hval) (List.getElem?_eq_getElem hpt)]
  simp [updateByte, hval, hpt]

/-- Writing entries i to i + todo - 1 of one buffer: each becomes its E, and every other entry of either buffer stays. -/
theorem writeEntries_spec {vals pts : List Byte} (b : Bool) (todo : Nat) {i : Nat} (s : State) (hfit : i + todo ≤ 8)
    (hvals : i + todo ≤ vals.length) (hpts : i + todo ≤ pts.length) :
    ∃ t, writeEntries vals pts b todo i s = .next t ∧ t = { s with md := { s.md with buf := t.md.buf } } ∧
      ∀ b' d, t.bufRead b' d =
        if b' = b ∧ i ≤ d ∧ d < i + todo then some (updateByte s.params vals pts d) else s.bufRead b' d := by
  induction todo generalizing i s with
  | zero => exact ⟨s, rfl, rfl, fun b' d => by rw [if_neg (by omega)]⟩
  | succ n ih =>
    obtain ⟨u, hwrite, hframeU, -⟩ := bufWrite_spec s b i (updateByte s.params vals pts i) (by omega)
    have hparams : u.params = s.params := by rw [hframeU]
    obtain ⟨t, hrun, hframe, hread⟩ := ih (i := i + 1) u (by omega) (by omega) (by omega)
    refine ⟨t, ?_, ?_, fun b' d => ?_⟩
    · rw [writeEntries, writeEntry_eq_updateByte (by omega) (by omega), hwrite, andThen_next, hrun]
    · rw [hframeU] at hframe
      exact hframe
    · rw [hread, hparams, bufRead_write hwrite]
      by_cases hb : b' = b
      · by_cases hd : d = i
        · subst hd
          rw [if_neg (by omega), if_pos ⟨hb, rfl⟩, if_pos ⟨hb, by omega⟩]
        · by_cases hin : i + 1 ≤ d ∧ d < i + 1 + n
          · rw [if_pos ⟨hb, hin⟩, if_pos ⟨hb, by omega⟩]
          · rw [if_neg fun h => hin h.2, if_neg fun h => hd h.2, if_neg fun h => hin ⟨by omega, by omega⟩]
      · simp [hb]

theorem exec_mdUpdate_masked {s : State} (vals pts : List Byte) (hctx : s.inTick = false)
    (hmask : s.md.maskedDue = true) : exec (.mdUpdate vals pts) s = updMasked vals pts s := by
  simp [exec, execMdUpdate, inMain_of_not_inTick hctx, hmask]

/-- Settles O40, from the run of entry writes to the active buffer. -/
theorem updateCopiesUnderMask : Obligations.UpdateCopiesUnderMask := by
  intro s vals pts hctx hmask hvals hpts hn
  obtain ⟨u, hrun, hframe, hread⟩ := writeEntries_spec (vals := vals) (pts := pts) (i := 0) s.md.sel s.md.n
    (setMasked true s) (by omega) (by omega) (by omega)
  rw [exec_mdUpdate_masked vals pts hctx hmask, updMasked, hrun, andThen_next]
  generalize u.md.buf = buf at hframe
  subst hframe
  refine ⟨_, rfl, rfl, fun d hd => ?_, fun d hd => ?_, fun d => ?_⟩
  · exact (hread s.md.sel d).trans (if_pos ⟨rfl, by omega⟩)
  · exact (hread s.md.sel d).trans (if_neg (by omega))
  · exact (hread (!s.md.sel) d).trans (if_neg fun h => Bool.not_ne_self _ h.1)

/-! ### The events of MD_ADVANCE (R170) -/

theorem length_trace_of_gpioWrite {u : Owner} {base : PortBase} {pin : Nat} {lv : Level} {s t : State}
    (h : gpioWrite u base pin lv s = .next t) : t.trace.length = s.trace.length + 1 := by
  obtain ⟨-, rfl⟩ := gpioWrite_eq_next.mp h
  simp

theorem length_trace_of_gpioWriteRun {u : Owner} {base : PortBase} {pin : Nat} {lvs : List Level} {s t : State}
    (h : gpioWriteRun u base pin lvs s = .next t) : t.trace.length = s.trace.length + lvs.length := by
  induction lvs generalizing pin s with
  | nil =>
    obtain rfl := (next_inj ..).mp h
    rfl
  | cons lv rest ih =>
    obtain ⟨s1, hwrite, hrest⟩ := andThen_eq_next.mp h
    rw [ih hrest, length_trace_of_gpioWrite hwrite, List.length_cons]
    omega

theorem length_trace_of_deselect {s t : State} (h : deselect s = .next t) :
    t.trace.length = s.trace.length + if s.md.activeDigit.isSome then 1 else 0 := by
  unfold deselect at h
  cases hdigit : s.md.activeDigit with
  | none =>
    rw [hdigit] at h
    obtain rfl := (next_inj ..).mp h
    rfl
  | some a =>
    rw [hdigit] at h
    exact length_trace_of_gpioWrite h

/-- A refresh emits the eight data writes, the make, and the break if a digit is lit. -/
theorem length_trace_of_mdRefresh {s t : State} (h : mdRefresh s = .next t) :
    t.trace.length = s.trace.length + if s.md.activeDigit.isSome then 10 else 9 := by
  obtain ⟨s1, hbreak, h⟩ := andThen_eq_next.mp h
  have hlen1 := length_trace_of_deselect hbreak
  split at h
  · cases h
  · obtain ⟨s2, hdata, h⟩ := andThen_eq_next.mp h
    obtain ⟨s3, hmake, h⟩ := andThen_eq_next.mp h
    obtain rfl := (next_inj ..).mp h
    show s3.trace.length = _
    rw [length_trace_of_gpioWrite hmake, length_trace_of_gpioWriteRun hdata, hlen1, byteLevels, List.length_map,
      List.length_range]
    cases s.md.activeDigit <;> rfl

/-- Settles O44: unbound it is a no-op, and bound it is a refresh. -/
theorem advanceEventCount : Obligations.AdvanceEventCount := by
  intro s t h
  have hctx : s.inTick = true := by
    by_contra hctx
    rw [(contextMisuseIsRefused s).1 (Bool.eq_false_iff.mpr hctx)] at h
    cases h
  by_cases hbound : (s.md.configured && s.md.portsSet) = true
  · obtain ⟨hconf, hports⟩ := (Bool.and_eq_true ..).mp hbound
    rw [exec_mdAdvance_bound hctx hconf hports] at h
    rw [if_pos hbound, length_trace_of_mdRefresh h]
  · have hunbound := Bool.and_eq_false_iff.mp (Bool.eq_false_iff.mpr hbound)
    rw [exec_mdAdvance_unbound hctx hunbound] at h
    obtain rfl := (next_inj ..).mp h
    rw [if_neg hbound]
    rfl

end Sys2Proof.Machine
end

section
/-! SUPPORT. What an instruction can do, said once: every next state `exec` answers is reached by elementary updates of a few
kinds, each instruction its own (R39). What each command may write, what it leaves of the other unit's pins, the canonical form
of the stores and the growth of the trace follow, an update at a time. -/

namespace Sys2Proof.Machine

/-! ### The elementary updates -/

/-- The unit an instruction belongs to. -/
def unitOf : Instr → Owner
  | .ksConfigure _ _ _ _ _ => .ks
  | .ksPoll => .ks
  | .mdConfigure _ _ => .md
  | .mdSetPorts _ _ _ => .md
  | .mdUpdate _ _ => .md
  | .mdAdvance => .md

/-- The instruction has pin writes: every one but MD_UPDATE. -/
def writesPins : Instr → Bool
  | .mdUpdate _ _ => false
  | _ => true

/-- The instruction binds pins, and so writes directions. -/
def bindsPins : Instr → Bool
  | .ksConfigure _ _ _ _ _ => true
  | .mdSetPorts _ _ _ => true
  | _ => false

/-- One elementary update of an instruction. -/
inductive Update : Instr → State → State → Prop
  | write {i : Instr} {s : State} {base : PortBase} {pin : Nat} (lv : Level) (hi : writesPins i = true)
      (hfree : s.conflict (unitOf i) base pin = false) :
      Update i s { s with outs := Cells.put s.outs (pinKey base pin) lv, trace := s.trace ++ [.write base pin lv] }
  | setDir {i : Instr} {s : State} {base : PortBase} {mask : Byte} (dirs : Byte) (hi : bindsPins i = true)
      (hfree : ∀ p < 8, mask.getLsbD p = true → s.conflict (unitOf i) base p = false) :
      Update i s { s with dirs := putDirs base dirs (maskPins mask) s.dirs,
                          trace := s.trace ++ [.setDir base mask (dirs &&& mask)] }
  | respond {i : Instr} {s : State} (res : Result) (data : Byte) (hi : i.port = .command) :
      Update i s (respond res data s)
  | ksRegs {geom k : Byte} {lines cols : GroupOp} {map : List Byte} {s : State} (ks : Ks)
      (hmap : ks.keyMap = s.ks.keyMap) : Update (.ksConfigure geom k lines cols map) s { s with ks := ks }
  | keyMap {geom k : Byte} {lines cols : GroupOp} {map : List Byte} {s : State} {j : Nat} (hj : j < 16) (v : Byte) :
      Update (.ksConfigure geom k lines cols map) s
        { s with ks := { s.ks with keyMap := Memory.write s.ks.keyMap j v } }
  | read {s : State} {base : PortBase} {pin : Nat} :
      Update .ksPoll s { s with draws := s.draws.drop 1, drawn := s.drawn + 1,
                                trace := s.trace ++ [.read base pin (s.drawAt 0 base pin)] }
  | scan {s : State} (cand : Byte) (cnt : Nat) (phase : Phase) (hit : Option Nat) :
      Update .ksPoll s { s with ks := { s.ks with cand := cand, cnt := cnt, phase := phase, hit := hit } }
  | count {ndig pol : Byte} {s : State} (n : Nat) (q : Polarity) : Update (.mdConfigure ndig pol) s (mdCommitRegs n q s)
  | bind {data ctrl : GroupOp} {act : Byte} {s : State} (lv : Level) :
      Update (.mdSetPorts data ctrl act) s (portsCommitRegs data ctrl lv s)
  | entry {vals pts : List Byte} {s : State} {b : Bool} {d : Nat} (hd : d < 8) (v : Byte) :
      Update (.mdUpdate vals pts) s { s with md := { s.md with buf := Memory.write s.md.buf (bufAddr b d) v } }
  | position {vals pts : List Byte} {s : State} (sel : Bool) (uphase : UPhase) (due masked : Bool) :
      Update (.mdUpdate vals pts) s
        { s with md := { s.md with sel := sel, uphase := uphase, maskedDue := due }, masked := masked }
  | robin {s : State} (idx : Nat) (digit : Option Nat) :
      Update .mdAdvance s { s with md := { s.md with idx := idx, activeDigit := digit } }

/-- Updates of one instruction, one after another. -/
abbrev Updates (i : Instr) : State → State → Prop := Relation.ReflTransGen (Update i)

/-- The outcome's next state, where there is one, is reached from `s` by updates of `i`. -/
structure Reaches (i : Instr) (s : State) (o : Out) : Prop where
  of : ∀ t, o = .next t → Updates i s t

section
variable {i : Instr} {s : State}

theorem Reaches.next {t : State} (h : Updates i s t) : Reaches i s (.next t) := ⟨fun _ ht => (next_inj ..).mp ht ▸ h⟩

theorem Reaches.update {t : State} (h : Update i s t) : Reaches i s (.next t) := .next (.single h)

theorem Reaches.self : Reaches i s (.next s) := .next .refl

theorem Reaches.fault (r : Fault) : Reaches i s (.fault r) := ⟨fun _ h => nomatch h⟩

theorem Reaches.refused (r : Refusal) : Reaches i s (.refused r) := ⟨fun _ h => nomatch h⟩

theorem Reaches.andThen {o : Out} {f : State → Out} (ho : Reaches i s o) (hf : ∀ u, Reaches i u (f u)) :
    Reaches i s (andThen o f) := by
  refine ⟨fun t ht => ?_⟩
  obtain ⟨u, hu, hfu⟩ := andThen_eq_next.mp ht
  exact (ho.of u hu).trans ((hf u).of t hfu)

/-- An update, and then an outcome reached from the updated state. -/
theorem Reaches.after {u : State} {o : Out} (h : Update i s u) (ho : Reaches i u o) : Reaches i s o :=
  ⟨fun t ht => (Relation.ReflTransGen.single h).trans (ho.of t ht)⟩

theorem Reaches.raise (kind : Result) (data : Byte) (hi : i.port = .command) : Reaches i s (raise kind data s) :=
  .update (.respond kind data hi)

theorem Reaches.inMain {o : Out} (h : Reaches i s o) : Reaches i s (inMain s o) := by
  unfold Machine.inMain
  split
  · exact .refused _
  · exact h

/-! ### The shared operations -/

theorem reaches_gpioWrite (hi : writesPins i = true) (base : PortBase) (pin : Nat) (lv : Level) (s : State) :
    Reaches i s (gpioWrite (unitOf i) base pin lv s) := by
  refine ⟨fun t ht => ?_⟩
  obtain ⟨hfree, rfl⟩ := gpioWrite_eq_next.mp ht
  exact .single (.write lv hi hfree)

theorem reaches_gpioSetDir (hi : bindsPins i = true) (base : PortBase) (mask dirs : Byte) (s : State) :
    Reaches i s (gpioSetDir (unitOf i) base mask dirs s) := by
  refine ⟨fun t ht => ?_⟩
  obtain ⟨hfree, rfl⟩ := gpioSetDir_eq_next.mp ht
  exact .single (.setDir dirs hi hfree)

theorem reaches_gpioWriteRun (hi : writesPins i = true) (base : PortBase) (pin : Nat) (lvs : List Level) (s : State) :
    Reaches i s (gpioWriteRun (unitOf i) base pin lvs s) := by
  induction lvs generalizing pin s with
  | nil => exact .self
  | cons lv rest ih => exact (reaches_gpioWrite hi ..).andThen fun s1 => ih (pin + 1) s1

theorem reaches_deselect (hi : writesPins i = true) (hu : unitOf i = .md) (s : State) : Reaches i s (deselect s) := by
  unfold deselect
  split
  · exact .self
  · exact hu ▸ reaches_gpioWrite hi ..

theorem reaches_deselectBound (hi : writesPins i = true) (hu : unitOf i = .md) (s : State) :
    Reaches i s (deselectBound s) := by
  unfold deselectBound
  split
  · exact reaches_deselect hi hu s
  · exact .self

end

/-! ### The commands -/

theorem reaches_keyMapLoad {geom k : Byte} {lines cols : GroupOp} {map : List Byte} (j : Nat) (vs : List Byte)
    (s : State) : Reaches (.ksConfigure geom k lines cols map) s (keyMapLoad j vs s) := by
  induction vs generalizing j s with
  | nil => exact .self
  | cons v rest ih =>
    refine Reaches.andThen ⟨fun t ht => ?_⟩ fun s1 => ih (j + 1) s1
    obtain ⟨hj, rfl⟩ := keyMapWrite_eq_next.mp ht
    exact .single (.keyMap hj v)

theorem reaches_ksPinInit {geom k : Byte} {lines cols : GroupOp} {map : List Byte} (s : State) :
    Reaches (.ksConfigure geom k lines cols map) s (ksPinInit s) :=
  (reaches_gpioWriteRun rfl ..).andThen fun _ => (reaches_gpioSetDir rfl ..).andThen fun _ =>
  (reaches_gpioSetDir rfl ..).andThen fun _ => reaches_gpioWriteRun rfl ..

theorem reaches_execKsConfigure (geom k : Byte) (lines cols : GroupOp) (map : List Byte) (s : State) :
    Reaches (.ksConfigure geom k lines cols map) s (execKsConfigure geom k lines cols map s) := by
  refine Reaches.inMain ?_
  split
  · exact .raise _ _ rfl
  · next g _ =>
    have hregs : Update (.ksConfigure geom k lines cols map) s (ksCommitRegs g k lines cols s) := .ksRegs _ rfl
    exact .after hregs <| (reaches_keyMapLoad ..).andThen fun s1 => (reaches_ksPinInit s1).andThen fun s2 =>
      .after (.ksRegs { s2.ks with configured := true } rfl) (.update (.respond .ok 0x00 rfl))

theorem update_setPhase (p : Phase) (s : State) : Update .ksPoll s (setPhase p s) :=
  .scan s.ks.cand s.ks.cnt p s.ks.hit

theorem reaches_execKsPoll (s : State) : Reaches .ksPoll s (execKsPoll s) := by
  refine Reaches.inMain ?_
  cases s.ks.phase with
  | idle =>
    show Reaches _ _ (pollEntry s)
    unfold pollEntry
    split
    · exact .update (.scan s.ks.cand s.ks.cnt (.drive 0) none)
    · exact .raise _ _ rfl
  | drive l => exact (reaches_gpioWrite (i := .ksPoll) rfl ..).andThen fun _ => .update (update_setPhase ..)
  | settle l => exact .update (update_setPhase ..)
  | sample l c =>
    refine Reaches.andThen ⟨fun t ht => ?_⟩ fun s1 => .update (.scan s1.ks.cand s1.ks.cnt _ _)
    obtain ⟨-, rfl⟩ := gpioRead_eq_next.mp ht
    exact .single .read
  | release l => exact (reaches_gpioWrite (i := .ksPoll) rfl ..).andThen fun _ => .update (update_setPhase ..)
  | decide =>
    show Reaches _ _ (pollDecide s)
    unfold pollDecide
    split
    · exact .fault _
    · exact .after (.scan _ _ .idle s.ks.hit) (.update (.respond .ok _ rfl))

theorem reaches_execMdConfigure (ndig pol : Byte) (s : State) :
    Reaches (.mdConfigure ndig pol) s (execMdConfigure ndig pol s) := by
  refine Reaches.inMain ?_
  split
  · exact .raise _ _ rfl
  · exact (reaches_deselectBound rfl rfl s).andThen fun _ =>
      .after (.count _ _) (.update (.respond .ok 0x00 rfl))

theorem reaches_portsInit {data ctrl : GroupOp} {act : Byte} (s : State) :
    Reaches (.mdSetPorts data ctrl act) s (portsInit s) :=
  (reaches_gpioWriteRun rfl ..).andThen fun _ => (reaches_gpioSetDir rfl ..).andThen fun _ =>
  (reaches_gpioWriteRun rfl ..).andThen fun _ => reaches_gpioSetDir rfl ..

theorem reaches_execMdSetPorts (data ctrl : GroupOp) (act : Byte) (s : State) :
    Reaches (.mdSetPorts data ctrl act) s (execMdSetPorts data ctrl act s) := by
  refine Reaches.inMain ?_
  split
  · exact .raise _ _ rfl
  · exact (reaches_deselectBound rfl rfl s).andThen fun _ => .after (.bind _) <|
      (reaches_portsInit _).andThen fun _ => .update (.respond .ok 0x00 rfl)

theorem reaches_writeEntry {vals pts : List Byte} (b : Bool) (d : Nat) (s : State) :
    Reaches (.mdUpdate vals pts) s (writeEntry vals pts b d s) := by
  unfold writeEntry
  split
  · refine ⟨fun t ht => ?_⟩
    obtain ⟨hd, rfl⟩ := bufWrite_eq_next.mp ht
    exact .single (.entry hd _)
  · exact .fault _

theorem reaches_writeEntries {vals pts : List Byte} (b : Bool) (todo d : Nat) (s : State) :
    Reaches (.mdUpdate vals pts) s (writeEntries vals pts b todo d s) := by
  induction todo generalizing d s with
  | zero => exact .self
  | succ n ih => exact (reaches_writeEntry ..).andThen fun s1 => ih (d + 1) s1

theorem update_setUPhase {vals pts : List Byte} (u : UPhase) (s : State) :
    Update (.mdUpdate vals pts) s (setUPhase u s) :=
  .position s.md.sel u s.md.maskedDue s.masked

theorem reaches_execMdUpdate (vals pts : List Byte) (s : State) :
    Reaches (.mdUpdate vals pts) s (execMdUpdate vals pts s) := by
  refine Reaches.inMain ?_
  split
  · exact .after (.position s.md.sel s.md.uphase s.md.maskedDue true) <|
      (reaches_writeEntries ..).andThen fun s1 =>
        .after (.position s1.md.sel s1.md.uphase false false) (.update (.respond .ok 0x00 rfl))
  · cases s.md.uphase with
    | idle =>
      show Reaches _ _ (updEntry vals pts s)
      unfold updEntry
      split
      · exact .raise _ _ rfl
      · split
        · exact .update (update_setUPhase ..)
        · exact .update (.position s.md.sel s.md.uphase true s.masked)
    | write d => exact (reaches_writeEntry ..).andThen fun _ => .update (update_setUPhase ..)
    | commit =>
      exact .after (.position (!s.md.sel) .idle s.md.maskedDue s.masked) (.update (.respond .ok 0x00 rfl))

theorem reaches_execMdAdvance (s : State) : Reaches .mdAdvance s (execMdAdvance s) := by
  unfold execMdAdvance inTickContext
  split
  · split
    · refine (reaches_deselect rfl rfl s).andThen fun s1 => ?_
      split
      · exact .fault _
      · exact (reaches_gpioWriteRun (i := .mdAdvance) rfl ..).andThen fun _ =>
          (reaches_gpioWrite (i := .mdAdvance) rfl ..).andThen fun _ => .update (.robin ..)
    · exact .self
  · exact .refused _

/-- What an instruction can do: its next state is reached by its own updates. -/
theorem exec_updates {i : Instr} {s t : State} (h : exec i s = .next t) : Updates i s t := by
  cases i with
  | ksConfigure geom k lines cols map => exact (reaches_execKsConfigure geom k lines cols map s).of t h
  | ksPoll => exact (reaches_execKsPoll s).of t h
  | mdConfigure ndig pol => exact (reaches_execMdConfigure ndig pol s).of t h
  | mdSetPorts data ctrl act => exact (reaches_execMdSetPorts data ctrl act s).of t h
  | mdUpdate vals pts => exact (reaches_execMdUpdate vals pts s).of t h
  | mdAdvance => exact (reaches_execMdAdvance s).of t h

end Sys2Proof.Machine
end

section
/-! SUPPORT. What follows of every instruction from its updates: the registers it may write (R39), the canonical form of the
stores (R66), the other unit's pins (R75), and the growth of the trace (R64). -/

namespace Sys2Proof.Machine

/-- What holds of the state an instruction starts in and is kept by its updates holds of the state it answers. -/
theorem exec_induction {i : Instr} {s t : State} (h : exec i s = .next t) {motive : State → Prop} (hs : motive s)
    (hupdate : ∀ {u v : State}, Update i u v → motive u → motive v) : motive t := by
  have hupdates := exec_updates h
  clear h
  induction hupdates with
  | refl => exact hs
  | tail _ hlast ih => exact hupdate hlast ih

/-- Settles O49: what an update may write, kept along the updates of an instruction. -/
theorem commandsWriteOnlyTheirRegisters : Obligations.CommandsWriteOnlyTheirRegisters := by
  intro i s t h
  have hupdates := exec_updates h
  clear h
  induction hupdates with
  | refl => cases i <;> simp
  | @tail u _ _ hupdate ih =>
    obtain ⟨houtside, ih⟩ := ih
    cases hupdate with
    | write lv hi hfree =>
      refine ⟨houtside, ?_⟩
      cases i with
      | mdUpdate vals pts => cases hi
      | _ => exact ih
    | setDir dirs hi hfree =>
      refine ⟨houtside, ?_⟩
      cases i with
      | ksConfigure geom k lines cols map => exact ih
      | mdSetPorts data ctrl act => exact ih
      | _ => cases hi
    | respond res data hi =>
      refine ⟨houtside, ?_⟩
      cases i with
      | mdAdvance => cases hi
      | _ => exact ih
    | ksRegs ks hmap => exact ⟨houtside, ih⟩
    | keyMap hj v => exact ⟨houtside, ih⟩
    | read => exact ⟨houtside, ih⟩
    | scan cand cnt phase hit =>
      obtain ⟨hmd, hdirs, hmasked, hks⟩ := ih
      exact ⟨houtside, hmd, hdirs, hmasked,
        congrArg (fun k : Ks => { k with cand := cand, cnt := cnt, phase := phase, hit := hit }) hks⟩
    | count n q => exact ⟨houtside, ih⟩
    | @bind data ctrl _ _ lv =>
      obtain ⟨hks, hdraws, hmasked, hmd⟩ := ih
      exact ⟨houtside, hks, hdraws, hmasked, congrArg (fun m : Md => { m with
        activeDigit := none, dataGrp := boundGroup data, ctrlGrp := boundGroup ctrl, act := lv, portsSet := true }) hmd⟩
    | @entry _ _ _ b d hd v =>
      obtain ⟨hks, hdraws, hdirs, houts, hmd⟩ := ih
      exact ⟨houtside, hks, hdraws, hdirs, houts,
        congrArg (fun m : Md => { m with buf := Memory.write u.md.buf (bufAddr b d) v }) hmd⟩
    | position sel uphase due masked =>
      obtain ⟨hks, hdraws, hdirs, houts, hmd⟩ := ih
      exact ⟨houtside, hks, hdraws, hdirs, houts,
        congrArg (fun m : Md => { m with sel := sel, uphase := uphase, maskedDue := due }) hmd⟩
    | robin idx digit =>
      obtain ⟨hks, hdraws, hdirs, hmasked, hlatch, hmd⟩ := ih
      exact ⟨houtside, hks, hdraws, hdirs, hmasked, hlatch,
        congrArg (fun m : Md => { m with idx := idx, activeDigit := digit }) hmd⟩

/-! ### Outside the units (R39) -/

/-- No instruction writes the parameters, the schedule, the command stream, the pending bit or the context. -/
theorem exec_outside {i : Instr} {s t : State} (h : exec i s = .next t) :
    t.params = s.params ∧ t.sched = s.sched ∧ t.cmds = s.cmds ∧ t.tickPending = s.tickPending ∧ t.inTick = s.inTick :=
  (commandsWriteOnlyTheirRegisters i s t h).1

/-! ### The canonical form of the stores (R66) -/

theorem Update.ramInv {i : Instr} {s t : State} (h : Update i s t) (hs : s.RamInv) : t.RamInv := by
  obtain ⟨hmap, hmapEnd, hbuf, hbufEnd, hdirs, houts⟩ := hs
  cases h with
  | write lv hi hfree => exact ⟨hmap, hmapEnd, hbuf, hbufEnd, hdirs, Cells.wf_put houts _ _⟩
  | setDir dirs hi hfree => exact ⟨hmap, hmapEnd, hbuf, hbufEnd, putDirs_wf _ _ _ hdirs, houts⟩
  | respond res data hi => exact ⟨hmap, hmapEnd, hbuf, hbufEnd, hdirs, houts⟩
  | ksRegs ks hks => exact ⟨hks ▸ hmap, hks ▸ hmapEnd, hbuf, hbufEnd, hdirs, houts⟩
  | keyMap hj v => exact ⟨Memory.wf_write hmap _ v, Memory.below_write hmapEnd hj v, hbuf, hbufEnd, hdirs, houts⟩
  | read => exact ⟨hmap, hmapEnd, hbuf, hbufEnd, hdirs, houts⟩
  | scan cand cnt phase hit => exact ⟨hmap, hmapEnd, hbuf, hbufEnd, hdirs, houts⟩
  | count n q =>
    exact ⟨hmap, hmapEnd, Memory.wf_nil, fun _ hc => absurd hc List.not_mem_nil, hdirs, houts⟩
  | bind lv => exact ⟨hmap, hmapEnd, hbuf, hbufEnd, hdirs, houts⟩
  | entry hd v =>
    exact ⟨hmap, hmapEnd, Memory.wf_write hbuf _ v, Memory.below_write hbufEnd (bufAddr_lt hd) v, hdirs, houts⟩
  | position sel uphase due masked => exact ⟨hmap, hmapEnd, hbuf, hbufEnd, hdirs, houts⟩
  | robin idx digit => exact ⟨hmap, hmapEnd, hbuf, hbufEnd, hdirs, houts⟩

/-- Every instruction keeps the RAMs and the pin stores canonical. -/
theorem exec_ramInv {i : Instr} {s t : State} (h : exec i s = .next t) (hs : s.RamInv) : t.RamInv :=
  exec_induction h hs fun hupdate ih => hupdate.ramInv ih

/-! ### The other unit's pins (R75) -/

/-- The pins bound to the other unit are the same pins, with the same directions and latches. -/
structure ForeignPinsKept (u : Owner) (s t : State) : Prop where
  bound : ∀ base pin, t.conflict u base pin = s.conflict u base pin
  dir : ∀ base pin, s.conflict u base pin = true → t.pinDir base pin = s.pinDir base pin
  out : ∀ base pin, s.conflict u base pin = true → t.pinOut base pin = s.pinOut base pin

theorem ForeignPinsKept.refl (u : Owner) (s : State) : ForeignPinsKept u s s :=
  ⟨fun _ _ => rfl, fun _ _ _ => rfl, fun _ _ _ => rfl⟩

theorem ForeignPinsKept.trans {u : Owner} {s t v : State} (h : ForeignPinsKept u s t) (h' : ForeignPinsKept u t v) :
    ForeignPinsKept u s v where
  bound base pin := (h'.bound base pin).trans (h.bound base pin)
  dir base pin hc := (h'.dir base pin ((h.bound base pin).trans hc)).trans (h.dir base pin hc)
  out base pin hc := (h'.out base pin ((h.bound base pin).trans hc)).trans (h.out base pin hc)

/-- An update that writes neither the pins nor the other unit's registers. -/
theorem ForeignPinsKept.of_same {u : Owner} {s t : State}
    (hbound : ∀ base pin, t.conflict u base pin = s.conflict u base pin) (hdirs : t.dirs = s.dirs)
    (houts : t.outs = s.outs) : ForeignPinsKept u s t where
  bound := hbound
  dir base pin _ := by rw [State.pinDir, State.pinDir, hdirs]
  out base pin _ := by rw [State.pinOut, State.pinOut, houts]

theorem Update.foreignPins {i : Instr} {s t : State} (h : Update i s t) : ForeignPinsKept (unitOf i) s t := by
  cases h with
  | @write _ _ base pin lv hi hfree =>
    refine ⟨fun _ _ => conflict_congr rfl rfl .., fun _ _ _ => rfl, fun b p hc => ?_⟩
    rw [gpioWrite_pinOut (gpioWrite_eq_next.mpr ⟨hfree, rfl⟩), if_neg]
    rintro ⟨rfl, rfl⟩
    exact absurd hc (Bool.eq_false_iff.mp hfree)
  | @setDir _ _ base mask dirs hi hfree =>
    refine ⟨fun _ _ => conflict_congr rfl rfl .., fun b p hc => ?_, fun _ _ _ => rfl⟩
    rw [gpioSetDir_pinDir (gpioSetDir_eq_next.mpr ⟨hfree, rfl⟩), if_neg]
    rintro ⟨rfl, hp, hm⟩
    exact absurd hc (Bool.eq_false_iff.mp (hfree p hp hm))
  | respond res data hi => exact .of_same (fun _ _ => conflict_congr rfl rfl ..) rfl rfl
  | ksRegs ks hmap => exact .of_same (fun _ _ => rfl) rfl rfl
  | keyMap hj v => exact .of_same (fun _ _ => rfl) rfl rfl
  | read => exact .of_same (fun _ _ => rfl) rfl rfl
  | scan cand cnt phase hit => exact .of_same (fun _ _ => rfl) rfl rfl
  | count n q => exact .of_same (fun _ _ => rfl) rfl rfl
  | bind lv => exact .of_same (fun _ _ => rfl) rfl rfl
  | entry hd v => exact .of_same (fun _ _ => rfl) rfl rfl
  | position sel uphase due masked => exact .of_same (fun _ _ => rfl) rfl rfl
  | robin idx digit => exact .of_same (fun _ _ => rfl) rfl rfl

/-- No instruction touches a pin bound to the other unit. -/
theorem exec_foreignPins {i : Instr} {s t : State} (h : exec i s = .next t) : ForeignPinsKept (unitOf i) s t :=
  exec_induction h (.refl ..) fun hupdate ih => ih.trans hupdate.foreignPins

/-! ### The trace (R64, R72) -/

/-- What was emitted from `s` to `t` stands at the end of the trace, and each of it is as `P` says. -/
def Emitted (P : Obs → Prop) (s t : State) : Prop := ∃ evs, t.trace = s.trace ++ evs ∧ ∀ e ∈ evs, P e

section
variable {P : Obs → Prop}

theorem Emitted.of_trace_eq {s t : State} (h : t.trace = s.trace) : Emitted P s t :=
  ⟨[], by simpa using h, fun _ he => absurd he List.not_mem_nil⟩

theorem Emitted.of_one {s t : State} {e : Obs} (h : t.trace = s.trace ++ [e]) (he : P e) : Emitted P s t :=
  ⟨[e], h, fun _ hmem => List.mem_singleton.mp hmem ▸ he⟩

theorem Emitted.trans {s t u : State} (h : Emitted P s t) (h' : Emitted P t u) : Emitted P s u := by
  obtain ⟨evs, htrace, hevs⟩ := h
  obtain ⟨evs', htrace', hevs'⟩ := h'
  refine ⟨evs ++ evs', by rw [htrace', htrace, List.append_assoc], fun e he => ?_⟩
  exact (List.mem_append.mp he).elim (hevs e) (hevs' e)

/-- An update emits an event of which `P` holds, where `P` holds of what the unit may emit. -/
theorem Update.emitted {i : Instr} {s t : State} (h : Update i s t) (hwrite : ∀ b p lv, P (.write b p lv))
    (hsetDir : ∀ b mask dirs, P (.setDir b mask dirs)) (hresp : ∀ res data, P (.response res data))
    (hread : i = .ksPoll → ∀ b p lv, P (.read b p lv)) : Emitted P s t := by
  cases h with
  | write lv hi hfree => exact .of_one rfl (hwrite ..)
  | setDir dirs hi hfree => exact .of_one rfl (hsetDir ..)
  | respond res data hi => exact .of_one rfl (hresp ..)
  | read => exact .of_one rfl (hread rfl ..)
  | _ => exact .of_trace_eq rfl

end

/-- The observation is no pin read. -/
def NoRead (e : Obs) : Prop := ∀ base pin lv, e ≠ .read base pin lv

/-- Every instruction adds to the end of the trace. -/
theorem exec_emitted {i : Instr} {s t : State} (h : exec i s = .next t) : Emitted (fun _ => True) s t :=
  exec_induction h (.of_trace_eq rfl) fun hupdate ih =>
    ih.trans (hupdate.emitted (fun _ _ _ => trivial) (fun _ _ _ => trivial) (fun _ _ => trivial)
      fun _ _ _ _ => trivial)

/-- Only KS_POLL reads a pin. -/
theorem exec_emitted_noRead {i : Instr} {s t : State} (hi : i ≠ .ksPoll) (h : exec i s = .next t) :
    Emitted NoRead s t :=
  exec_induction h (.of_trace_eq rfl) fun hupdate ih =>
    ih.trans (hupdate.emitted (fun _ _ _ _ _ _ => nofun) (fun _ _ _ _ _ _ => nofun) (fun _ _ _ _ _ => nofun)
      fun hpoll => absurd hpoll hi)

end Sys2Proof.Machine
end

section
/-! SUPPORT. The invariant by its parts (R28, R34, R66, R75): what each part gives, what keeps it, and what it says of the
command in the latch. -/

namespace Sys2Proof.Machine

/-! ### The steps of the agents (R72, R206) -/

/-- What a step of MAIN can be: idle, one micro-step of the latched command, or the answer to an illegal frame. -/
theorem mainStep_cases {s t : State} (h : mainStep s = .next t) :
    (s.issue.latch = none ∧ t = s.issue) ∨
    (∃ f i, s.issue.latch = some f ∧ decodeFrame .command f = .ok i ∧ exec i s.issue = .next t) ∨
    (∃ f r, s.issue.latch = some f ∧ decodeFrame .command f = .error r ∧ t = respond .illegalCommand 0x00 s.issue) := by
  cases hlatch : s.issue.latch with
  | none =>
    rw [mainStep_of_no_latch hlatch, next_inj] at h
    exact .inl ⟨rfl, h.symm⟩
  | some f =>
    cases hdec : decodeFrame .command f with
    | ok i =>
      rw [mainStep_of_decode hlatch hdec] at h
      exact .inr (.inl ⟨f, i, rfl, hdec, h⟩)
    | error r =>
      rw [mainStep_of_decode_error hlatch hdec, raise, next_inj] at h
      exact .inr (.inr ⟨f, r, rfl, hdec, h.symm⟩)

/-- What a step of TICK can be: nothing, or MD_ADVANCE between entering and leaving TICK context. -/
theorem tickStep_cases {s t : State} (h : tickStep s = .next t) :
    (s.tickReady = false ∧ t = s) ∨
    (s.tickReady = true ∧ ∃ u, exec .mdAdvance (enterTick s) = .next u ∧ t = leaveTick u) := by
  cases hready : s.tickReady with
  | false =>
    rw [tickStep_of_not_ready hready, next_inj] at h
    exact .inl ⟨rfl, h.symm⟩
  | true =>
    rw [tickStep_of_ready hready] at h
    obtain ⟨u, hexec, hleave⟩ := andThen_eq_next.mp h
    exact .inr ⟨rfl, u, hexec, ((next_inj ..).mp hleave).symm⟩

/-- Settles O57: a turn adds to the trace what its instruction emits, or one response, or nothing. -/
theorem traceOnlyGrows : Obligations.TraceOnlyGrows := by
  intro s t h
  change runTurn s.turn s.popTurn = .next t at h
  cases hturn : s.turn with
  | main =>
    rw [hturn] at h
    rcases mainStep_cases h with ⟨-, rfl⟩ | ⟨f, i, -, -, hexec⟩ | ⟨f, r, -, -, rfl⟩
    · exact ⟨[], by simp⟩
    · obtain ⟨evs, htrace, -⟩ := exec_emitted hexec
      exact ⟨evs, by rw [htrace, issue_trace, popTurn_trace]⟩
    · exact ⟨[_], by rw [respond_trace, issue_trace, popTurn_trace]⟩
  | tick =>
    rw [hturn] at h
    rcases tickStep_cases h with ⟨-, rfl⟩ | ⟨-, u, hexec, rfl⟩
    · exact ⟨[], by simp⟩
    · obtain ⟨evs, htrace, -⟩ := exec_emitted hexec
      exact ⟨evs, htrace⟩
  | strobe =>
    rw [hturn] at h
    obtain rfl := (next_inj ..).mp h
    exact ⟨[], by simp⟩
  | reset pinsKept =>
    rw [hturn] at h
    obtain rfl := (next_inj ..).mp h
    exact ⟨[], by simp⟩

/-! ### What the invariant says of pins (R28, R34, R75) -/

/-- No line and no column of KS is bound to MD: no pin is bound to both units. -/
theorem unitsDisjoint_iff {s : State} :
    s.UnitsDisjoint ↔ ∀ base pin, s.ksBound base pin = true → s.mdBound base pin = false := by
  constructor
  · intro h base pin hks
    obtain ⟨hconf, hpin⟩ := ksBound_iff.mp hks
    obtain ⟨hlines, hcols⟩ := h hconf
    rcases hpin with hpin | hpin
    · exact State.GroupFree.conflict_of_has (u := .ks) hlines hpin
    · exact State.GroupFree.conflict_of_has (u := .ks) hcols hpin
  · intro h hconf
    exact ⟨fun i hi => h _ _ (ksBound_iff.mpr ⟨hconf, .inl (Group.has_pin hi)⟩),
      fun j hj => h _ _ (ksBound_iff.mpr ⟨hconf, .inr (Group.has_pin hj)⟩)⟩

section
variable {s : State}

theorem State.UnitsDisjoint.not_ksBound (h : s.UnitsDisjoint) {base : PortBase} {pin : Nat}
    (hmd : s.mdBound base pin = true) : s.ksBound base pin = false := by
  by_contra hks
  simp [unitsDisjoint_iff.mp h _ _ (Bool.not_eq_false _ ▸ hks)] at hmd

theorem mdBound_selectPin (hconf : s.md.configured = true) (hports : s.md.portsSet = true) {d : Nat} (hd : d < s.md.n) :
    s.mdBound s.md.ctrlGrp.base (s.selectPin d) = true :=
  mdBound_iff.mpr ⟨hconf, hports, .inr (Group.has_pin hd)⟩

theorem mdBound_dataPin (hconf : s.md.configured = true) (hports : s.md.portsSet = true) {b : Nat} (hb : b < 8) :
    s.mdBound s.md.dataGrp.base (s.dataPin b) = true :=
  mdBound_iff.mpr ⟨hconf, hports, .inl (Group.has_pin hb)⟩

theorem ksBound_linePin (hconf : s.ks.configured = true) {i : Nat} (hi : i < s.ks.lines) :
    s.ksBound s.ks.lineGrp.base (s.linePin i) = true :=
  ksBound_iff.mpr ⟨hconf, .inl (Group.has_pin hi)⟩

theorem ksBound_colPin (hconf : s.ks.configured = true) {j : Nat} (hj : j < s.ks.cols) :
    s.ksBound s.ks.colGrp.base (s.colPin j) = true :=
  ksBound_iff.mpr ⟨hconf, .inr (Group.has_pin hj)⟩

/-- Ports are set only while the unit is configured. -/
theorem State.MdInv.configured (h : s.MdInv) (hports : s.md.portsSet = true) : s.md.configured = true := by
  obtain ⟨-, -, hbound⟩ := h
  exact (hbound hports).1

/-- A lit digit is a digit of a bound display. -/
theorem State.MdInv.lit (h : s.MdInv) {a : Nat} (ha : s.md.activeDigit = some a) :
    s.md.portsSet = true ∧ a < s.md.n := by
  obtain ⟨-, hdigit, -⟩ := h
  simpa [ha] using hdigit

theorem State.Inv.mdInv (h : s.Inv) : s.MdInv := by
  obtain ⟨-, -, -, hmd, -⟩ := h
  exact hmd

theorem State.Inv.unitsDisjoint (h : s.Inv) : s.UnitsDisjoint := by
  obtain ⟨-, -, -, -, hdisjoint, -⟩ := h
  exact hdisjoint

/-- No pin of a bound display is bound to KS. -/
theorem State.Inv.selectPin_free (h : s.Inv) (hports : s.md.portsSet = true) {d : Nat} (hd : d < s.md.n) :
    s.ksBound s.md.ctrlGrp.base (s.selectPin d) = false :=
  h.unitsDisjoint.not_ksBound (mdBound_selectPin (h.mdInv.configured hports) hports hd)

theorem State.Inv.dataPin_free (h : s.Inv) (hports : s.md.portsSet = true) {b : Nat} (hb : b < 8) :
    s.ksBound s.md.dataGrp.base (s.dataPin b) = false :=
  h.unitsDisjoint.not_ksBound (mdBound_dataPin (h.mdInv.configured hports) hports hb)

theorem State.Inv.litFree (h : s.Inv) : s.LitFree := fun a ha => by
  obtain ⟨hports, hlt⟩ := h.mdInv.lit ha
  exact h.selectPin_free hports hlt

/-- No column pin of a configured keypad is bound to MD. -/
theorem State.Inv.colPin_free (h : s.Inv) (hconf : s.ks.configured = true) {j : Nat} (hj : j < s.ks.cols) :
    s.mdBound s.ks.colGrp.base (s.colPin j) = false :=
  (h.unitsDisjoint hconf).2 j hj

end

/-! ### What keeps the parts of the invariant -/

section
variable {s t : State}

/-- MD's part, where MD's registers and the pins bound to it are the same. -/
theorem State.MdInv.of_foreignPins (h : s.MdInv) (hmd : t.md = s.md) (hpins : ForeignPinsKept .ks s t) : t.MdInv := by
  obtain ⟨hcount, hdigit, hbound⟩ := h
  refine ⟨hmd ▸ hcount, hmd ▸ hdigit, fun hports => ?_⟩
  rw [hmd] at hports
  obtain ⟨hconf, hdataFit, hctrlFit, hsep, hselect, hdata⟩ := hbound hports
  simp only [State.SelectInv, State.selectPin, State.dataPin, hmd]
  refine ⟨hconf, hdataFit, hctrlFit, hsep, fun d hd => ?_, fun b hb => ?_⟩
  · have hpin := mdBound_selectPin hconf hports hd
    exact ⟨(hpins.dir _ _ hpin).trans (hselect d hd).1, (hpins.out _ _ hpin).trans (hselect d hd).2⟩
  · exact (hpins.dir _ _ (mdBound_dataPin hconf hports hb)).trans (hdata b hb)

/-- KS's part, where KS's registers and the pins bound to it are the same. -/
theorem State.KsInv.of_foreignPins (h : s.KsInv) (hks : t.ks = s.ks) (hparams : t.params = s.params)
    (hpins : ForeignPinsKept .md s t) : t.KsInv := by
  intro hconf
  rw [hks] at hconf
  obtain ⟨hk, hkMax, hcnt, hlineFit, hcolFit, hsep, hlines, hcols⟩ := h hconf
  simp only [State.LinesInv, State.linePin, State.colPin, hks, hparams]
  refine ⟨hk, hkMax, hcnt, hlineFit, hcolFit, hsep, fun i hi => ?_, fun j hj => ?_⟩
  · have hpin := ksBound_linePin hconf hi
    exact ⟨(hpins.dir _ _ hpin).trans (hlines i hi).1, (hpins.out _ _ hpin).trans (hlines i hi).2⟩
  · exact (hpins.dir _ _ (ksBound_colPin hconf hj)).trans (hcols j hj)

/-- The part about disjoint pins, where each unit binds no pin it did not bind before. -/
theorem State.UnitsDisjoint.of_bound (h : s.UnitsDisjoint)
    (hks : ∀ base pin, t.ksBound base pin = true → s.ksBound base pin = true)
    (hmd : ∀ base pin, t.mdBound base pin = true → s.mdBound base pin = true) : t.UnitsDisjoint := by
  refine unitsDisjoint_iff.mpr fun base pin hpin => Bool.eq_false_iff.mpr fun hbound => ?_
  exact absurd (hmd base pin hbound) (Bool.eq_false_iff.mp (unitsDisjoint_iff.mp h _ _ (hks base pin hpin)))

/-- No update is under way. -/
abbrev State.UpdateAtRest (s : State) : Prop := s.md.uphase = .idle ∧ s.md.maskedDue = false

theorem updateAtRest_iff : s.UpdateAtRest ↔ s.updating = false := by
  simp [State.UpdateAtRest, State.updating, and_comm]

/-- The part about updates, where none is under way. -/
theorem State.UpdateAtRest.updateInv (h : s.UpdateAtRest) : s.UpdateInv := by
  obtain ⟨hphase, hmask⟩ := h
  refine ⟨by simp [State.updatePositionOk, hphase, hmask], fun hupd => ?_⟩
  simp [State.updating, hphase, hmask] at hupd

theorem State.Inv.updateAtRest (h : s.Inv) (hlatch : s.latchedUpdate = none) : s.UpdateAtRest := by
  obtain ⟨-, -, -, -, -, ⟨-, hupd⟩, -⟩ := h
  refine updateAtRest_iff.mpr (Bool.eq_false_iff.mpr fun hupdating => ?_)
  obtain ⟨-, hsome, -⟩ := hupd hupdating
  simp [hlatch] at hsome

/-- No scan cycle is under way unless a KS_POLL is in flight. -/
theorem State.Inv.phase_idle (h : s.Inv) (hlatch : s.latch ≠ some (encodeFrame .ksPoll)) : s.ks.phase = .idle := by
  obtain ⟨-, -, ⟨-, -, hscan⟩, -⟩ := h
  by_contra hphase
  exact hlatch (hscan hphase).2

/-- KS's position, where KS's registers are the same and no scan cycle is under way. -/
theorem State.ScanInv.of_idle (h : s.ScanInv) (hks : t.ks = s.ks) (hidle : s.ks.phase = .idle) : t.ScanInv := by
  obtain ⟨hrange, hhit, -⟩ := h
  exact ⟨hks ▸ hrange, by simpa only [hks] using hhit, fun hphase => absurd (hks ▸ hidle) hphase⟩

/-! ### The invariant after a command -/

/-- After a KS command: the parts about KS are to show, and the others stay. -/
theorem State.Inv.after_ks {i : Instr} (h : s.Inv) (hexec : exec i s = .next t) (hunit : unitOf i = .ks)
    (hrest : s.UpdateAtRest) (hmd : t.md = s.md) (hmasked : t.masked = s.masked) (hks : t.KsInv) (hscan : t.ScanInv)
    (hdisjoint : t.UnitsDisjoint) : t.Inv := by
  obtain ⟨hram, -, -, hmdInv, -, -, hmask, htick⟩ := h
  obtain ⟨-, -, -, -, hctx⟩ := exec_outside hexec
  have hrest' : t.UpdateAtRest := by rwa [State.UpdateAtRest, hmd]
  exact ⟨exec_ramInv hexec hram, hks, hscan, hmdInv.of_foreignPins hmd (hunit ▸ exec_foreignPins hexec), hdisjoint,
    hrest'.updateInv, hmasked.trans hmask, hctx.trans htick⟩

/-- After an MD command of MAIN: the parts about MD are to show, and the others stay. -/
theorem State.Inv.after_md {i : Instr} (h : s.Inv) (hexec : exec i s = .next t) (hunit : unitOf i = .md)
    (hidle : s.ks.phase = .idle) (hks : t.ks = s.ks) (hmasked : t.masked = false) (hmd : t.MdInv)
    (hdisjoint : t.UnitsDisjoint) (hupdate : t.UpdateInv) : t.Inv := by
  obtain ⟨hram, hksInv, hscan, -, -, -, -, htick⟩ := h
  obtain ⟨hparams, -, -, -, hctx⟩ := exec_outside hexec
  exact ⟨exec_ramInv hexec hram, hksInv.of_foreignPins hks hparams (hunit ▸ exec_foreignPins hexec),
    hscan.of_idle hks hidle, hmd, hdisjoint, hupdate, hmasked, hctx.trans htick⟩

/-- After a response that ends the command at once, with nothing under way. -/
theorem State.Inv.after_respond (h : s.Inv) (hidle : s.ks.phase = .idle) (hrest : s.UpdateAtRest) (res : Result)
    (data : Byte) : (respond res data s).Inv := by
  obtain ⟨hram, hks, hscan, hmd, hdisjoint, -, hctx⟩ := h
  exact ⟨hram, hks, hscan.of_idle rfl hidle, hmd, hdisjoint, State.UpdateAtRest.updateInv hrest, hctx⟩

end

end Sys2Proof.Machine
end

section
/-! SUPPORT. KS_POLL under the invariant (R114–R123, R216): each micro-step answers, keeps the invariant, and brings the
response one nearer. -/

namespace Sys2Proof.Machine

/-! ### How far the response is (R216) -/

/-- A micro-step of MAIN from `s` to `t`: the last of its command, which gives the one response and frees the latch, or one that
answers nothing and leaves one fewer to do. -/
inductive MicroStep (s t : State) : Prop
  | last (hleft : s.microStepsLeft = 1) (hlatch : t.latch = none) (r : Result × Byte)
      (hanswers : t.answers = s.answers ++ [r])
  | more (hleft : s.microStepsLeft = t.microStepsLeft + 1) (hpos : 1 ≤ t.microStepsLeft) (hlatch : t.latch = s.latch)
      (hanswers : t.answers = s.answers)

/-- The micro-step of `o` from `s` answers a next state, keeps the invariant, and brings the response one nearer. -/
abbrev StepsOn (s : State) (o : Out) : Prop := ∃ t, o = .next t ∧ t.Inv ∧ MicroStep s t

/-- A response, where it ends a command with nothing else under way. -/
theorem State.Inv.stepsOn_raise {s : State} (h : s.Inv) (hidle : s.ks.phase = .idle) (hrest : s.UpdateAtRest)
    (hleft : s.microStepsLeft = 1) (kind : Result) (data : Byte) : StepsOn s (raise kind data s) :=
  ⟨_, rfl, h.after_respond hidle hrest kind data, .last hleft rfl (kind, data) (answers_respond ..)⟩

/-! ### The command in the latch -/

theorem latchedUpdate_eq_none {s : State} {i : Instr} (hlatch : s.latch = some (encodeFrame i)) (hwf : i.wf = true)
    (hport : i.port = .command) (hi : ∀ vals pts, i ≠ .mdUpdate vals pts) : s.latchedUpdate = none := by
  simp only [State.latchedUpdate, hlatch, decodeFrame_encodeFrame hwf hport]
  cases i with
  | mdUpdate vals pts => exact absurd rfl (hi vals pts)
  | _ => rfl

theorem latchedUpdate_mdUpdate {s : State} {vals pts : List Byte} (hlatch : s.latch = some (encodeFrame (.mdUpdate vals pts)))
    (hwf : (Instr.mdUpdate vals pts).wf = true) : s.latchedUpdate = some (vals, pts) := by
  simp only [State.latchedUpdate, hlatch, decodeFrame_encodeFrame hwf rfl]

/-! ### The micro-steps left in a scan cycle (R115) -/

section
variable {g : Geometry} {l c : Nat}

theorem inRange_drive : (Phase.drive l).inRange g = true ↔ l < g.lines := by simp [Phase.inRange]

theorem inRange_settle : (Phase.settle l).inRange g = true ↔ l < g.lines := by simp [Phase.inRange]

theorem inRange_sample : (Phase.sample l c).inRange g = true ↔ l < g.lines ∧ c < g.cols := by simp [Phase.inRange]

theorem inRange_release : (Phase.release l).inRange g = true ↔ l < g.lines := by simp [Phase.inRange]

theorem Geometry.lines_pos (g : Geometry) : 0 < g.lines := by cases g <;> decide

theorem Geometry.cols_pos (g : Geometry) : 0 < g.cols := by cases g <;> decide

/-- The phase of line l once c of its columns are read: the next column, or the release (R118). -/
def columnPhase (g : Geometry) (l c : Nat) : Phase := if c < g.cols then .sample l c else .release l

/-- The phase once l lines are scanned: the next line, or DECIDE (R119). -/
def linePhase (g : Geometry) (l : Nat) : Phase := if l < g.lines then .drive l else .decide

theorem columnPhase_of_lt (hc : c < g.cols) : columnPhase g l c = .sample l c := if_pos hc

theorem columnPhase_cols : columnPhase g l g.cols = .release l := if_neg (Nat.lt_irrefl _)

theorem linePhase_of_lt (hl : l < g.lines) : linePhase g l = .drive l := if_pos hl

theorem linePhase_lines : linePhase g g.lines = .decide := if_neg (Nat.lt_irrefl _)

theorem activeLine_columnPhase : (columnPhase g l c).activeLine = some l := by
  unfold columnPhase
  split <;> rfl

theorem activeLine_linePhase : (linePhase g l).activeLine = none := by
  unfold linePhase
  split <;> rfl

theorem inRange_columnPhase (hl : l < g.lines) : (columnPhase g l c).inRange g = true := by
  unfold columnPhase
  split
  · next hc => exact inRange_sample.mpr ⟨hl, hc⟩
  · exact inRange_release.mpr hl

theorem inRange_linePhase : (linePhase g l).inRange g = true := by
  unfold linePhase
  split
  · next hl => exact inRange_drive.mpr hl
  · rfl

/-- The micro-steps left in a scan cycle, from the phase. -/
def pollStepsLeft (g : Geometry) (p : Phase) : Nat :=
  match p with
  | .idle => pollSteps g
  | .drive l => (g.lines - l) * (g.cols + 3) + 1
  | .settle l => (g.lines - l) * (g.cols + 3)
  | .sample l c => (g.lines - l - 1) * (g.cols + 3) + (g.cols - c) + 2
  | .release l => (g.lines - l - 1) * (g.cols + 3) + 2
  | .decide => 1

/-- The micro-steps of the lines from l on are those of line l and those of the later lines. -/
theorem lineSteps_eq (hl : l < g.lines) :
    (g.lines - l) * (g.cols + 3) = (g.lines - l - 1) * (g.cols + 3) + (g.cols + 3) := by
  obtain ⟨q, hq⟩ : ∃ q, g.lines - l = q + 1 := ⟨g.lines - l - 1, by omega⟩
  rw [hq, Nat.add_sub_cancel, Nat.succ_mul]

theorem pollStepsLeft_pos {p : Phase} (hrange : p.inRange g = true) : 1 ≤ pollStepsLeft g p := by
  cases p with
  | settle l =>
    rw [pollStepsLeft, lineSteps_eq (inRange_settle.mp hrange)]
    omega
  | idle => exact Nat.le_add_left ..
  | drive l => exact Nat.le_add_left ..
  | sample l c => exact Nat.le_add_left_of_le (by decide)
  | release l => exact Nat.le_add_left_of_le (by decide)
  | decide => exact Nat.le_refl 1

theorem pollStepsLeft_settle (hl : l < g.lines) :
    pollStepsLeft g (.settle l) = pollStepsLeft g (.sample l 0) + 1 := by
  simp only [pollStepsLeft, lineSteps_eq hl]
  omega

theorem pollStepsLeft_sample (hc : c < g.cols) :
    pollStepsLeft g (.sample l c) = pollStepsLeft g (columnPhase g l (c + 1)) + 1 := by
  unfold columnPhase
  split <;> simp only [pollStepsLeft] <;> omega

theorem pollStepsLeft_release (hl : l < g.lines) :
    pollStepsLeft g (.release l) = pollStepsLeft g (linePhase g (l + 1)) + 1 := by
  unfold linePhase
  split
  · rfl
  · have hlast : g.lines - l - 1 = 0 := by omega
    simp only [pollStepsLeft, hlast, Nat.zero_mul]

/-- No scan cycle has more than 32 micro-steps. -/
theorem pollStepsLeft_le {p : Phase} (hrange : p.inRange g = true) : pollStepsLeft g p ≤ 32 := by
  have hbound : g.lines * (g.cols + 3) ≤ 30 := by cases g <;> decide
  have hlines (q : Nat) : (g.lines - q) * (g.cols + 3) ≤ 30 :=
    (Nat.mul_le_mul_right _ (Nat.sub_le ..)).trans hbound
  cases p with
  | idle => simp only [pollStepsLeft, pollSteps]; omega
  | drive l => have := hlines l; simp only [pollStepsLeft]; omega
  | settle l => have := hlines l; simp only [pollStepsLeft]; omega
  | sample l c =>
    have h := lineSteps_eq (inRange_sample.mp hrange).1
    have := hlines l
    simp only [pollStepsLeft]
    omega
  | release l =>
    have h := lineSteps_eq (inRange_release.mp hrange)
    have := hlines l
    simp only [pollStepsLeft]
    omega
  | decide => exact Nat.le_add_left 1 31

end

/-! ### A scan cycle under the invariant -/

section
variable {s t : State} (hinv : s.Inv) (hlatch : s.latch = some (encodeFrame .ksPoll))

include hlatch in
theorem microStepsLeft_ksPoll :
    s.microStepsLeft = if s.ks.configured then pollStepsLeft s.ks.geom s.ks.phase else 1 := by
  simp only [State.microStepsLeft, hlatch, decodeFrame_encodeFrame (i := .ksPoll) rfl rfl]
  rfl

include hinv hlatch in
theorem State.Inv.updateAtRest_of_ksPoll : s.UpdateAtRest :=
  hinv.updateAtRest (latchedUpdate_eq_none hlatch rfl rfl fun _ _ => nofun)

theorem State.Inv.hit_all (hinv : s.Inv) : s.ks.hit.all (fun h => h < s.ks.lines * s.ks.cols) = true := by
  obtain ⟨-, -, ⟨-, hhit, -⟩, -⟩ := hinv
  exact hhit

theorem State.Inv.cnt_le (hinv : s.Inv) (hconf : s.ks.configured = true) : s.ks.cnt ≤ s.ks.k := by
  obtain ⟨-, hks, -⟩ := hinv
  obtain ⟨-, -, hcnt, -⟩ := hks hconf
  exact hcnt

theorem State.Inv.one_le_k (hinv : s.Inv) (hconf : s.ks.configured = true) : 1 ≤ s.ks.k := by
  obtain ⟨-, hks, -⟩ := hinv
  exact (hks hconf).1

/-- The invariant after a micro-step of a configured KS_POLL: what is left to show is about the counter, the lines and the
position in the scan. -/
theorem State.Inv.after_poll (hinv : s.Inv) (hrest : s.UpdateAtRest) (hexec : exec .ksPoll s = .next t)
    (hconf : s.ks.configured = true) (hcnt : t.ks.cnt ≤ s.ks.k)
    (hout : ∀ i < s.ks.lines, t.pinOut s.ks.lineGrp.base (s.linePin i) =
      if t.ks.phase.activeLine = some i then s.params.kpActive else inactiveKp s.params)
    (hscan : t.ScanInv) : t.Inv := by
  obtain ⟨⟨hparams, -⟩, hmd, hdirs, hmasked, hks⟩ := commandsWriteOnlyTheirRegisters _ _ _ hexec
  have hgeom : t.ks.geom = s.ks.geom := by rw [hks]
  have hline : t.ks.lineGrp = s.ks.lineGrp := by rw [hks]
  have hcol : t.ks.colGrp = s.ks.colGrp := by rw [hks]
  have hthreshold : t.ks.k = s.ks.k := by rw [hks]
  refine hinv.after_ks hexec rfl hrest hmd hmasked (fun _ => ?_) hscan ?_
  · obtain ⟨-, hksInv, -⟩ := hinv
    obtain ⟨hk, hkMax, -, hlineFit, hcolFit, hsep, hlines, hcols⟩ := hksInv hconf
    simp only [State.LinesInv, State.linePin, State.colPin, Ks.lines, Ks.cols, hgeom, hline, hcol, hthreshold, hparams]
    refine ⟨hk, hkMax, hcnt, hlineFit, hcolFit, hsep, fun i hi => ⟨?_, hout i hi⟩, fun j hj => ?_⟩
    · rw [State.pinDir, hdirs]
      exact (hlines i hi).1
    · rw [State.pinDir, hdirs]
      exact hcols j hj
  · refine hinv.unitsDisjoint.of_bound (fun base pin h => ?_) (fun base pin h => ?_)
    · rw [ksBound_iff, Ks.lines, Ks.cols, hgeom, hline, hcol] at h
      exact ksBound_iff.mpr ⟨hconf, h.2⟩
    · rwa [State.mdBound, hmd] at h

/-- The lines after a micro-step that writes no pin and keeps the active line. -/
theorem State.Inv.pinOut_line_of_same (hinv : s.Inv) (hconf : s.ks.configured = true) (houts : t.outs = s.outs)
    {p : Phase} (hactive : p.activeLine = s.ks.phase.activeLine) {i : Nat} (hi : i < s.ks.lines) :
    t.pinOut s.ks.lineGrp.base (s.linePin i) =
      if p.activeLine = some i then s.params.kpActive else inactiveKp s.params := by
  rw [State.pinOut, houts, hactive]
  exact hinv.pinOut_line hconf hi

include hinv hlatch in
/-- A micro-step of a configured KS_POLL that goes on to phase `p`, one nearer to the response. -/
theorem stepsOn_poll_phase (hconf : s.ks.configured = true) (hexec : exec .ksPoll s = .next t) {p : Phase}
    {hit : Option Nat} (hks : t.ks = { s.ks with phase := p, hit := hit }) (hlatch' : t.latch = s.latch)
    (hanswers : t.answers = s.answers) (hrange : p.inRange s.ks.geom = true)
    (hhit : hit.all (fun h => h < s.ks.lines * s.ks.cols) = true)
    (hout : ∀ i < s.ks.lines, t.pinOut s.ks.lineGrp.base (s.linePin i) =
      if p.activeLine = some i then s.params.kpActive else inactiveKp s.params)
    (hleft : pollStepsLeft s.ks.geom s.ks.phase = pollStepsLeft s.ks.geom p + 1) : StepsOn s (exec .ksPoll s) := by
  have hconf' : t.ks.configured = true := by rw [hks]; exact hconf
  have hleft' : t.microStepsLeft = pollStepsLeft s.ks.geom p := by
    rw [microStepsLeft_ksPoll (hlatch'.trans hlatch), if_pos hconf', hks]
  refine ⟨t, hexec, hinv.after_poll (hinv.updateAtRest_of_ksPoll hlatch) hexec hconf ?_ ?_ ?_,
    .more ?_ ?_ hlatch' hanswers⟩
  · rw [hks]
    exact hinv.cnt_le hconf
  · rw [hks]
    exact hout
  · rw [State.ScanInv, hks, hlatch']
    exact ⟨hrange, hhit, fun _ => ⟨hconf, hlatch⟩⟩
  · rw [microStepsLeft_ksPoll hlatch, if_pos hconf, hleft, hleft']
  · rw [hleft']
    exact pollStepsLeft_pos hrange

/-! ### The micro-steps one by one -/

include hinv hlatch in
theorem stepsOn_pollEntry (hphase : s.ks.phase = .idle) : StepsOn s (exec .ksPoll s) := by
  have hctx := hinv.inTick_eq_false
  cases hconf : s.ks.configured with
  | false =>
    rw [(pollEntry_branches s hctx hphase).1 hconf]
    refine hinv.stepsOn_raise hphase (hinv.updateAtRest_of_ksPoll hlatch) ?_ ..
    rw [microStepsLeft_ksPoll hlatch, if_neg (Bool.eq_false_iff.mp hconf)]
  | true =>
    refine stepsOn_poll_phase hinv hlatch hconf ((pollEntry_branches s hctx hphase).2 hconf) rfl rfl rfl
      (inRange_drive.mpr s.ks.geom.lines_pos) rfl
      (fun i hi => hinv.pinOut_line_of_same hconf rfl (by rw [hphase]; rfl) hi) ?_
    rw [hphase]
    simp only [pollStepsLeft, pollSteps, Nat.sub_zero]
    omega

include hinv hlatch in
theorem stepsOn_pollDrive {l : Nat} (hphase : s.ks.phase = .drive l) : StepsOn s (exec .ksPoll s) := by
  have hscan : s.ks.phase ≠ .idle := by simp [hphase]
  have hl : l < s.ks.geom.lines := inRange_drive.mp (hphase ▸ hinv.phase_inRange)
  obtain ⟨t, hrun, hframe, hout⟩ := pollDrive_spec (hinv.linePin_free_of_phase (.inl hphase))
  refine stepsOn_poll_phase hinv hlatch (hinv.configured_of_phase hscan)
    ((exec_ksPoll_drive hinv.inTick_eq_false hphase).trans hrun) (by rw [hframe]) (by rw [hframe])
    (by rw [hframe]; exact responses_append_event rfl _) (inRange_settle.mpr hl) hinv.hit_all (fun i hi => ?_) ?_
  · rw [hinv.pinOut_line_of_write hscan hout hi, hphase]
    simp only [Phase.activeLine, reduceCtorEq, if_false, Option.some.injEq, eq_comm]
  · rw [hphase]
    rfl

include hinv hlatch in
theorem stepsOn_pollSettle {l : Nat} (hphase : s.ks.phase = .settle l) : StepsOn s (exec .ksPoll s) := by
  have hconf := hinv.configured_of_phase (by simp [hphase])
  have hl : l < s.ks.geom.lines := inRange_settle.mp (hphase ▸ hinv.phase_inRange)
  refine stepsOn_poll_phase hinv hlatch hconf (pollSettles s l hinv.inTick_eq_false hphase) rfl rfl rfl
    (inRange_sample.mpr ⟨hl, s.ks.geom.cols_pos⟩) hinv.hit_all
    (fun i hi => hinv.pinOut_line_of_same hconf rfl (by rw [hphase]; rfl) hi) ?_
  rw [hphase]
  exact pollStepsLeft_settle hl

/-- The raw index of a line and a column is a key-map index. -/
theorem index_lt {lines cols l c : Nat} (hl : l < lines) (hc : c < cols) : l * cols + c < lines * cols :=
  calc l * cols + c < l * cols + cols := by omega
    _ = (l + 1) * cols := (Nat.succ_mul ..).symm
    _ ≤ lines * cols := Nat.mul_le_mul_right _ hl

include hinv hlatch in
theorem stepsOn_pollSample {l c : Nat} (hphase : s.ks.phase = .sample l c) : StepsOn s (exec .ksPoll s) := by
  have hconf := hinv.configured_of_phase (by simp [hphase])
  obtain ⟨hl, hc⟩ : l < s.ks.geom.lines ∧ c < s.ks.geom.cols := inRange_sample.mp (hphase ▸ hinv.phase_inRange)
  have hactive : (columnPhase s.ks.geom l (c + 1)).activeLine = s.ks.phase.activeLine := by
    rw [hphase, activeLine_columnPhase]
    rfl
  refine stepsOn_poll_phase hinv hlatch hconf
    (pollSamplesColumn s l c _ hinv.inTick_eq_false hphase (hinv.colPin_free hconf hc) rfl)
    (p := columnPhase s.ks.geom l (c + 1)) rfl rfl (responses_append_event rfl _) (inRange_columnPhase hl) ?_
    (fun i hi => hinv.pinOut_line_of_same hconf rfl hactive hi) ?_
  · split
    · exact decide_eq_true (index_lt hl hc)
    · exact hinv.hit_all
  · rw [hphase]
    exact pollStepsLeft_sample hc

include hinv hlatch in
theorem stepsOn_pollRelease {l : Nat} (hphase : s.ks.phase = .release l) : StepsOn s (exec .ksPoll s) := by
  have hscan : s.ks.phase ≠ .idle := by simp [hphase]
  have hl : l < s.ks.geom.lines := inRange_release.mp (hphase ▸ hinv.phase_inRange)
  obtain ⟨t, hrun, hframe, hout⟩ := pollRelease_spec (hinv.linePin_free_of_phase (.inr hphase))
  refine stepsOn_poll_phase hinv hlatch (hinv.configured_of_phase hscan)
    ((exec_ksPoll_release hinv.inTick_eq_false hphase).trans hrun) (p := linePhase s.ks.geom (l + 1)) (by rw [hframe]; rfl)
    (by rw [hframe]) (by rw [hframe]; exact responses_append_event rfl _) inRange_linePhase hinv.hit_all
    (fun i hi => ?_) ?_
  · rw [hinv.pinOut_line_of_write hscan hout hi, hphase, activeLine_linePhase]
    by_cases hil : i = l
    · simp [hil]
    · simp [Phase.activeLine, hil, Ne.symm hil]
  · rw [hphase]
    exact pollStepsLeft_release hl

/-- The candidate of a scan whose hit is a key. -/
theorem candidate_of_hit_lt (hhit : s.ks.hit.all (fun h => h < s.ks.lines * s.ks.cols) = true) :
    ∃ new, s.candidate = some new := by
  cases hh : s.ks.hit with
  | none => exact ⟨noKey, by simp [State.candidate, hh]⟩
  | some h =>
    have hlt : h < 16 := by
      rw [hh] at hhit
      exact Nat.lt_of_lt_of_le (of_decide_eq_true hhit) s.ks.geom.keys_le
    exact ⟨Memory.read s.ks.keyMap h, by simp [State.candidate, hh, State.keyMapRead, Config.keyMapSize, hlt]⟩

/-- The counter stays within the threshold. -/
theorem debounce_cnt_le {k cnt : Nat} (hk : 1 ≤ k) (hcnt : cnt ≤ k) (mode : ReportMode) (cand new : Byte) :
    (debounce mode k cand cnt new).cnt ≤ k := by
  rw [debounce_cnt]
  split
  · split <;> omega
  · exact hk

include hinv hlatch in
theorem stepsOn_pollDecide (hphase : s.ks.phase = .decide) : StepsOn s (exec .ksPoll s) := by
  have hconf := hinv.configured_of_phase (by simp [hphase])
  obtain ⟨new, hnew⟩ := candidate_of_hit_lt hinv.hit_all
  have hexec := (exec_ksPoll_decide hinv.inTick_eq_false hphase).trans (pollDecide_of_candidate hnew)
  refine ⟨_, hexec, hinv.after_poll (hinv.updateAtRest_of_ksPoll hlatch) hexec hconf
    (debounce_cnt_le (hinv.one_le_k hconf) (hinv.cnt_le hconf) s.params.reportMode s.ks.cand new)
    (fun i hi => hinv.pinOut_line_of_same (p := .idle) hconf rfl (by rw [hphase]; rfl) hi)
    ⟨rfl, hinv.hit_all, fun h => absurd rfl h⟩, .last ?_ rfl (.ok, _) (responses_append ..)⟩
  rw [microStepsLeft_ksPoll hlatch, if_pos hconf, hphase]
  rfl

include hinv hlatch in
/-- Every micro-step of KS_POLL, by the phase. -/
theorem stepsOn_ksPoll : StepsOn s (exec .ksPoll s) := by
  cases hphase : s.ks.phase with
  | idle => exact stepsOn_pollEntry hinv hlatch hphase
  | drive l => exact stepsOn_pollDrive hinv hlatch hphase
  | settle l => exact stepsOn_pollSettle hinv hlatch hphase
  | sample l c => exact stepsOn_pollSample hinv hlatch hphase
  | release l => exact stepsOn_pollRelease hinv hlatch hphase
  | decide => exact stepsOn_pollDecide hinv hlatch hphase

end

end Sys2Proof.Machine
end

section
/-! SUPPORT. The configuring and binding commands under the invariant (R110–R113, R150–R156, R216): each answers at once and keeps
the invariant, or stops with PinConflict. -/

namespace Sys2Proof.Machine

theorem State.Inv.masked_eq_false {s : State} (h : s.Inv) : s.masked = false := by
  obtain ⟨-, -, -, -, -, -, hmask, -⟩ := h
  exact hmask

/-! ### A command of one micro-step -/

section
variable {s : State} {i : Instr} (hinv : s.Inv) (hlatch : s.latch = some (encodeFrame i)) (hwf : i.wf = true)
  (hport : i.port = .command) (hpoll : i ≠ .ksPoll) (hupdate : ∀ vals pts, i ≠ .mdUpdate vals pts)
include hlatch hwf hport

include hpoll hupdate in
theorem microStepsLeft_eq_one : s.microStepsLeft = 1 := by
  simp only [State.microStepsLeft, hlatch, decodeFrame_encodeFrame hwf hport]
  cases i with
  | ksPoll => exact absurd rfl hpoll
  | mdUpdate vals pts => exact absurd rfl (hupdate vals pts)
  | _ => rfl

include hpoll in
/-- The frame of another command is not KS_POLL's, which determines its instruction. -/
theorem latch_ne_ksPoll : s.latch ≠ some (encodeFrame .ksPoll) := by
  rw [hlatch]
  intro h
  have hdec := decodeFrame_encodeFrame hwf hport
  rw [Option.some.inj h] at hdec
  exact hpoll (Except.ok.inj hdec).symm

include hinv hpoll hupdate in
/-- Neither a scan cycle nor an update is under way. -/
theorem State.Inv.nothing_under_way : s.ks.phase = .idle ∧ s.UpdateAtRest :=
  ⟨hinv.phase_idle (latch_ne_ksPoll hlatch hwf hport hpoll),
    hinv.updateAtRest (latchedUpdate_eq_none hlatch hwf hport hupdate)⟩

include hinv hpoll hupdate in
/-- The error response of a command of one micro-step. -/
theorem stepsOn_error {kind : Result} {data : Byte} (herror : AnswersError i s kind data) : StepsOn s (exec i s) := by
  obtain ⟨hidle, hrest⟩ := hinv.nothing_under_way hlatch hwf hport hpoll hupdate
  rw [herror]
  exact hinv.stepsOn_raise hidle hrest (microStepsLeft_eq_one hlatch hwf hport hpoll hupdate) kind data

end

/-! ### Pin events are no responses -/

/-- The writes of any levels on any pins are no responses. -/
theorem responses_map_write (base : PortBase) (pin : Nat → Nat) (lv : Nat → Level) (l : List Nat) :
    responses (l.map fun i => .write base (pin i) (lv i)) = [] := by
  simp [responses]

theorem responses_groupWrites (g : Group) (n : Nat) (lv : Level) : responses (groupWrites g n lv) = [] :=
  responses_map_write ..

theorem responses_ksPinInitEvents (lines cols : Group) (l c : Nat) (lv : Level) :
    responses (ksPinInitEvents lines cols l c lv) = [] := by
  simp only [ksPinInitEvents, responses_append, responses_groupWrites]
  rfl

theorem responses_deselectEvents (md : Md) : responses (deselectEvents md) = [] := by
  unfold deselectEvents
  split <;> rfl

theorem responses_portsInitEvents (data ctrl : Group) (n : Nat) (act : Level) (pol : Polarity) :
    responses (portsInitEvents data ctrl n act pol) = [] := by
  simp only [portsInitEvents, responses_append, responses_groupWrites]
  rfl

/-- The deselect of a bound display is no response. -/
theorem responses_deselectBound (md : Md) : responses (if md.portsSet then deselectEvents md else []) = [] := by
  split
  · exact responses_deselectEvents md
  · rfl

/-- Events that are no responses, and then one response. -/
theorem answers_of_trace {s t : State} {evs : List Obs} {res : Result} {data : Byte}
    (htrace : t.trace = s.trace ++ evs ++ [.response res data]) (hevs : responses evs = []) :
    t.answers = s.answers ++ [(res, data)] := by
  rw [State.answers, htrace, responses_append, responses_append, hevs, List.append_nil]
  rfl

/-! ### KS_CONFIGURE (R110–R113) -/

theorem stepsOn_ksConfigure {s : State} {geom k : Byte} {lines cols : GroupOp} {map : List Byte} (hinv : s.Inv)
    (hlatch : s.latch = some (encodeFrame (.ksConfigure geom k lines cols map)))
    (hwf : (Instr.ksConfigure geom k lines cols map).wf = true) :
    StepsOn s (exec (.ksConfigure geom k lines cols map) s) ∨
      exec (.ksConfigure geom k lines cols map) s = .fault .pinConflict := by
  have hctx := hinv.inTick_eq_false
  obtain ⟨-, hrest⟩ := hinv.nothing_under_way hlatch hwf rfl nofun fun _ _ => nofun
  cases hcheck : ksValidate s.params geom k lines cols map with
  | error kind =>
    exact .inl (stepsOn_error hinv hlatch hwf rfl nofun (fun _ _ => nofun) (answersError_ksConfigure hctx hcheck))
  | ok g =>
    obtain ⟨-, -, hk, hlines, hcols, hsep⟩ := ksValidate_eq_ok.mp hcheck
    refine (exec_ksConfigure_outcome hctx geom k lines cols map).imp_left fun ⟨t, ht⟩ => ?_
    obtain ⟨hlineFree, hcolFree⟩ := groupFree_of_exec_ksConfigure hctx hcheck ht
    obtain ⟨_, _, _, _, rfl, hexec, -, hout, hdir, -⟩ := exec_ksConfigure_spec hctx hcheck hlineFree hcolFree
    refine ⟨_, hexec, hinv.after_ks hexec rfl hrest rfl rfl (fun _ => ?_) ⟨rfl, rfl, fun h => absurd rfl h⟩
      (fun _ => ⟨hlineFree, hcolFree⟩), .last (microStepsLeft_eq_one hlatch hwf rfl nofun fun _ _ => nofun) rfl (.ok, 0x00)
      (answers_of_trace rfl (responses_ksPinInitEvents ..))⟩
    have hk1 : 1 ≤ k.toNat := Nat.one_le_iff_ne_zero.mpr fun h => hk (BitVec.eq_of_toNat_eq h)
    refine ⟨hk1, Nat.le_of_lt_succ k.isLt, Nat.zero_le _, boundGroup_fits hlines, boundGroup_fits hcols, hsep,
      fun i hi => ?_, fun j hj => ?_⟩
    · have hline : (boundGroup lines).has g.lines _ _ = true := Group.has_pin hi
      have hcol := Group.not_has_of_overlap hsep hline
      exact ⟨(hdir ..).trans ((if_neg hcol).trans (if_pos hline)), (hout ..).trans ((if_neg hcol).trans (if_pos hline))⟩
    · exact (hdir ..).trans (if_pos (Group.has_pin hj))

/-! ### MD_CONFIGURE (R150, R151) -/

theorem stepsOn_mdConfigure {s : State} {ndig pol : Byte} (hinv : s.Inv)
    (hlatch : s.latch = some (encodeFrame (.mdConfigure ndig pol))) : StepsOn s (exec (.mdConfigure ndig pol) s) := by
  have hctx := hinv.inTick_eq_false
  obtain ⟨hidle, -⟩ := hinv.nothing_under_way hlatch rfl rfl nofun fun _ _ => nofun
  cases hcheck : mdValidate ndig pol with
  | error kind =>
    exact stepsOn_error hinv hlatch rfl rfl nofun (fun _ _ => nofun) (answersError_mdConfigure hctx hcheck)
  | ok q =>
    obtain ⟨hlo, hhi, -⟩ := mdValidate_eq_ok.mp hcheck
    obtain ⟨t, _, ht, hexec, -⟩ := exec_mdConfigure_spec hctx hcheck fun _ => hinv.litFree
    have hmd : t.md = (mdCommitRegs ndig.toNat q s).md := by rw [ht]
    have hks : t.ks = s.ks := by rw [ht]; rfl
    have hmasked : t.masked = s.masked := by rw [ht]; rfl
    refine ⟨t, hexec, hinv.after_md hexec rfl hidle hks (hmasked.trans hinv.masked_eq_false) ?_ (fun _ => ?_) ?_,
      .last (microStepsLeft_eq_one hlatch rfl rfl nofun fun _ _ => nofun) (by rw [ht]) (.ok, 0x00)
      (answers_of_trace (by rw [ht]) (responses_deselectBound _))⟩
    · rw [State.MdInv, hmd]
      exact ⟨fun _ => ⟨hlo, hhi, Nat.lt_of_lt_of_le Nat.zero_lt_two hlo⟩, rfl, nofun⟩
    · simp [State.mdBound, hmd]
    · exact State.UpdateAtRest.updateInv (by rw [State.UpdateAtRest, hmd]; exact ⟨rfl, rfl⟩)

/-! ### MD_SETPORTS (R153–R156) -/

theorem stepsOn_mdSetPorts {s : State} {data ctrl : GroupOp} {act : Byte} (hinv : s.Inv)
    (hlatch : s.latch = some (encodeFrame (.mdSetPorts data ctrl act))) :
    StepsOn s (exec (.mdSetPorts data ctrl act) s) ∨ exec (.mdSetPorts data ctrl act) s = .fault .pinConflict := by
  have hctx := hinv.inTick_eq_false
  obtain ⟨hidle, hrest⟩ := hinv.nothing_under_way hlatch rfl rfl nofun fun _ _ => nofun
  cases hcheck : portsValidate s.params s.md data ctrl act with
  | error kind =>
    exact .inl (stepsOn_error hinv hlatch rfl rfl nofun (fun _ _ => nofun) (answersError_mdSetPorts hctx hcheck))
  | ok lv =>
    obtain ⟨hconf, -, hdata, hctrl, hsep⟩ := portsValidate_eq_ok.mp hcheck
    refine (exec_mdSetPorts_outcome hctx data ctrl act).imp_left fun ⟨t, ht⟩ => ?_
    obtain ⟨hctrlFree, hdataFree⟩ := groupFree_of_exec_mdSetPorts hctx hcheck ht
    obtain ⟨_, _, _, rfl, hexec, hout, hdir, -⟩ :=
      exec_mdSetPorts_spec hctx hcheck (fun _ => hinv.litFree) hdataFree hctrlFree
    obtain ⟨hcount, -, -⟩ := hinv.mdInv
    refine ⟨_, hexec, hinv.after_md hexec rfl hidle rfl hinv.masked_eq_false ⟨hcount, rfl, fun _ => ?_⟩
      (unitsDisjoint_iff.mpr fun base pin hks => Bool.eq_false_iff.mpr fun hmd => ?_)
      (State.UpdateAtRest.updateInv hrest),
      .last (microStepsLeft_eq_one hlatch rfl rfl nofun fun _ _ => nofun) rfl (.ok, 0x00)
      (answers_of_trace (evs := _ ++ _) (by simp only [List.append_assoc]; rfl) ?_)⟩
    · refine ⟨hconf, boundGroup_fits hdata, boundGroup_fits hctrl, hsep, fun d hd => ?_, fun b hb => ?_⟩
      · have hsel : (boundGroup ctrl).has s.md.n _ _ = true := Group.has_pin hd
        have hnotData := fun hpin => Group.not_has_of_overlap hsep hpin hsel
        exact ⟨(hdir ..).trans ((if_neg hnotData).trans (if_pos hsel)),
          (hout ..).trans ((if_neg hnotData).trans (if_pos hsel))⟩
      · exact (hdir ..).trans (if_pos (Group.has_pin hb))
    · obtain ⟨-, -, hpin⟩ := mdBound_iff.mp hmd
      have hfree : s.ksBound base pin = false :=
        hpin.elim (State.GroupFree.conflict_of_has hdataFree) (State.GroupFree.conflict_of_has hctrlFree)
      exact absurd hks (Bool.eq_false_iff.mp hfree)
    · rw [responses_append, responses_deselectBound, responses_portsInitEvents, List.append_nil]

end Sys2Proof.Machine
end

section
/-! SUPPORT. MD_UPDATE and the tick under the invariant (R157–R165, R206–R209): each micro-step of an update answers, keeps the
invariant and brings the response one nearer; a tick answers and keeps the invariant. -/

namespace Sys2Proof.Machine

/-! ### An update under way (R33, R160) -/

section
variable {s t : State} {vals pts : List Byte} (hinv : s.Inv)
  (hlatch : s.latch = some (encodeFrame (.mdUpdate vals pts))) (hwf : (Instr.mdUpdate vals pts).wf = true)

/-- What the invariant says of an update under way. -/
structure UpdateFacts (s : State) (vals pts : List Byte) : Prop where
  configured : s.md.configured = true
  vals_length : vals.length = s.md.n
  pts_length : pts.length = s.md.n
  filled : ∀ d < s.shadowFilled, s.shadowEntry d = some (updateByte s.params vals pts d)

theorem State.UpdateInv.facts (h : s.UpdateInv) (hlatched : s.latchedUpdate = some (vals, pts))
    (hupd : s.updating = true) : UpdateFacts s vals pts := by
  obtain ⟨-, h⟩ := h
  obtain ⟨hconf, -, hvals, hpts, hfilled⟩ := h hupd
  simp only [hlatched, Option.getD_some] at hvals hpts hfilled
  exact ⟨hconf, hvals, hpts, hfilled⟩

theorem UpdateFacts.updateInv (h : UpdateFacts s vals pts) (hlatched : s.latchedUpdate = some (vals, pts))
    (hposition : s.updatePositionOk = true) : s.UpdateInv := by
  refine ⟨hposition, fun _ => ?_⟩
  simp only [hlatched, Option.getD_some]
  exact ⟨h.configured, rfl, h.vals_length, h.pts_length, h.filled⟩

theorem State.Inv.updateInv (hinv : s.Inv) : s.UpdateInv := by
  obtain ⟨-, -, -, -, -, hupd, -⟩ := hinv
  exact hupd

include hinv hlatch hwf in
theorem State.Inv.updateFacts (hupd : s.updating = true) : UpdateFacts s vals pts :=
  hinv.updateInv.facts (latchedUpdate_mdUpdate hlatch hwf) hupd

theorem State.MdInv.count (h : s.MdInv) (hconf : s.md.configured = true) :
    2 ≤ s.md.n ∧ s.md.n ≤ 8 ∧ s.md.idx < s.md.n := by
  obtain ⟨hcount, -, -⟩ := h
  exact hcount hconf

include hinv hlatch hwf in
theorem State.Inv.phase_idle_of_mdUpdate : s.ks.phase = .idle :=
  hinv.phase_idle (latch_ne_ksPoll hlatch hwf rfl nofun)

include hinv hlatch hwf in
/-- The invariant after a micro-step of MD_UPDATE: what is left to show is about the update's position. -/
theorem State.Inv.after_update (hexec : exec (.mdUpdate vals pts) s = .next t) (hmasked : t.masked = false)
    (hupdate : t.UpdateInv) : t.Inv := by
  obtain ⟨-, hks, -, hdirs, houts, hmd⟩ := commandsWriteOnlyTheirRegisters _ _ _ hexec
  refine hinv.after_md hexec rfl (hinv.phase_idle_of_mdUpdate hlatch hwf) hks hmasked ?_ ?_ hupdate
  · have h := hinv.mdInv
    simp only [State.MdInv, State.SelectInv, State.selectPin, State.dataPin, State.pinDir, State.pinOut, hdirs, houts]
      at h ⊢
    rw [hmd]
    exact h
  · refine hinv.unitsDisjoint.of_bound (fun base pin h => ?_) (fun base pin h => ?_)
    · rwa [State.ksBound, hks] at h
    · rw [State.mdBound, hmd] at h
      exact h

/-! ### The micro-steps left in an update (R157, R162) -/

/-- The micro-steps left in a SWAP update, from md.N and the position. -/
def swapStepsLeft (n : Nat) (u : UPhase) : Nat :=
  match u with
  | .idle => n + 2
  | .write i => n - i + 1
  | .commit => 1

theorem swapStepsLeft_pos (n : Nat) (u : UPhase) : 1 ≤ swapStepsLeft n u := by
  cases u <;> exact Nat.le_add_left ..

/-- The position after WRITE(i) (R160). -/
def afterWrite (n i : Nat) : UPhase := if i + 1 < n then .write (i + 1) else .commit

theorem afterWrite_cases (n i : Nat) :
    (i + 1 < n ∧ afterWrite n i = .write (i + 1)) ∨ (n ≤ i + 1 ∧ afterWrite n i = .commit) := by
  by_cases h : i + 1 < n
  · exact .inl ⟨h, if_pos h⟩
  · exact .inr ⟨Nat.not_lt.mp h, if_neg h⟩

theorem afterWrite_ne_idle (n i : Nat) : afterWrite n i ≠ .idle := by
  unfold afterWrite
  split <;> exact nofun

theorem swapStepsLeft_write {n i : Nat} (hi : i < n) :
    swapStepsLeft n (.write i) = swapStepsLeft n (afterWrite n i) + 1 := by
  unfold afterWrite
  split <;> simp only [swapStepsLeft] <;> omega

section
include hlatch hwf

theorem microStepsLeft_of_due (hdue : s.md.maskedDue = true) : s.microStepsLeft = 1 := by
  simp only [State.microStepsLeft, hlatch, decodeFrame_encodeFrame hwf rfl, hdue, if_true]

theorem microStepsLeft_of_uphase (hdue : s.md.maskedDue = false) (hphase : s.md.uphase ≠ .idle) :
    s.microStepsLeft = swapStepsLeft s.md.n s.md.uphase := by
  simp only [State.microStepsLeft, hlatch, decodeFrame_encodeFrame hwf rfl, hdue, Bool.false_eq_true, if_false]
  cases hu : s.md.uphase with
  | idle => exact absurd hu hphase
  | write i => rfl
  | commit => rfl

/-- Before UPD_ENTRY, where a check fails: the error response. -/
theorem microStepsLeft_of_entry_error (hdue : s.md.maskedDue = false) (hphase : s.md.uphase = .idle) {kind : Result}
    (hcheck : updateValidate s.md vals pts = .error kind) : s.microStepsLeft = 1 := by
  simp [State.microStepsLeft, hlatch, decodeFrame_encodeFrame hwf rfl, hdue, hphase, hcheck]

/-- Before UPD_ENTRY of a legal update: all the micro-steps of its scheme. -/
theorem microStepsLeft_of_entry_swap (hdue : s.md.maskedDue = false) (hphase : s.md.uphase = .idle) {u : Unit}
    (hcheck : updateValidate s.md vals pts = .ok u) (hscheme : s.params.cdcScheme = .swap) :
    s.microStepsLeft = s.md.n + 2 := by
  simp [State.microStepsLeft, hlatch, decodeFrame_encodeFrame hwf rfl, hdue, hphase, hcheck, hscheme]

theorem microStepsLeft_of_entry_mask (hdue : s.md.maskedDue = false) (hphase : s.md.uphase = .idle) {u : Unit}
    (hcheck : updateValidate s.md vals pts = .ok u) (hscheme : s.params.cdcScheme = .mask) : s.microStepsLeft = 2 := by
  simp [State.microStepsLeft, hlatch, decodeFrame_encodeFrame hwf rfl, hdue, hphase, hcheck, hscheme]

end

/-! ### The micro-steps one by one -/

include hinv hlatch hwf in
theorem stepsOn_updEntry (hphase : s.md.uphase = .idle) (hdue : s.md.maskedDue = false) :
    StepsOn s (exec (.mdUpdate vals pts) s) := by
  have hctx := hinv.inTick_eq_false
  have hidle := hinv.phase_idle_of_mdUpdate hlatch hwf
  have hlatched := latchedUpdate_mdUpdate hlatch hwf
  cases hcheck : updateValidate s.md vals pts with
  | error kind =>
    rw [answersError_mdUpdate hctx hphase hdue hcheck]
    exact hinv.stepsOn_raise hidle ⟨hphase, hdue⟩ (microStepsLeft_of_entry_error hlatch hwf hdue hphase hcheck) kind 0x00
  | ok u =>
    obtain ⟨hconf, hvals, hpts⟩ := updateValidate_eq_ok.mp hcheck
    obtain ⟨hn, -, -⟩ := hinv.mdInv.count hconf
    have hentry := exec_mdUpdate_entry (vals := vals) (pts := pts) hctx hphase hdue
    cases hscheme : s.params.cdcScheme with
    | swap =>
      have hleft := microStepsLeft_of_entry_swap hlatch hwf hdue hphase hcheck hscheme
      have hexec := hentry.trans (updEntry_of_swap hconf hvals hpts hscheme)
      have hleft' : (setUPhase (.write 0) s).microStepsLeft = s.md.n + 1 :=
        microStepsLeft_of_uphase (s := setUPhase (.write 0) s) hlatch hwf hdue nofun
      have hfacts : UpdateFacts (setUPhase (.write 0) s) vals pts :=
        ⟨hconf, hvals, hpts, fun d hd => absurd hd (Nat.not_lt_zero d)⟩
      refine ⟨_, hexec, hinv.after_update hlatch hwf hexec hinv.masked_eq_false (hfacts.updateInv hlatched ?_),
        .more ?_ ?_ rfl rfl⟩
      · simp only [State.updatePositionOk, setUPhase_md, setUPhase_params, hdue, hscheme, Bool.not_false, decide_true,
          Bool.true_and, decide_eq_true_eq]
        omega
      · rw [hleft, hleft']
      · rw [hleft']
        exact Nat.le_add_left ..
    | mask =>
      have hleft := microStepsLeft_of_entry_mask hlatch hwf hdue hphase hcheck hscheme
      have hexec := hentry.trans (updEntry_of_mask hconf hvals hpts hscheme)
      have hleft' : (setMaskedDue true s).microStepsLeft = 1 :=
        microStepsLeft_of_due (s := setMaskedDue true s) hlatch hwf rfl
      have hempty : (setMaskedDue true s).shadowFilled = 0 := by simp [State.shadowFilled, hphase]
      have hfacts : UpdateFacts (setMaskedDue true s) vals pts :=
        ⟨hconf, hvals, hpts, fun d hd => absurd (hempty ▸ hd) (Nat.not_lt_zero d)⟩
      refine ⟨_, hexec, hinv.after_update hlatch hwf hexec hinv.masked_eq_false (hfacts.updateInv hlatched ?_),
        .more (by rw [hleft, hleft']) (Nat.le_of_eq hleft'.symm) rfl rfl⟩
      simp [State.updatePositionOk, hphase, hscheme]

/-- WRITE(i) inside the buffer and the operands: the whole next state, and both buffers by entry. -/
theorem exec_mdUpdate_write_spec {i : Nat} (hctx : s.inTick = false) (hdue : s.md.maskedDue = false)
    (hphase : s.md.uphase = .write i) (hi : i < 8) (hval : i < vals.length) (hpt : i < pts.length) :
    ∃ t buf, t = { s with
        md := { s.md with buf := buf, uphase := afterWrite s.md.n i } } ∧
      exec (.mdUpdate vals pts) s = .next t ∧
      ∀ b d, t.bufRead b d =
        if b = (!s.md.sel) ∧ d = i then some (updateByte s.params vals pts i) else s.bufRead b d := by
  obtain ⟨u, hwrite, hframe, -⟩ := bufWrite_spec s (!s.md.sel) i (updateByte s.params vals pts i) hi
  have hread := fun b d => bufRead_write (b' := b) (d' := d) hwrite
  rw [exec_mdUpdate_write vals pts hctx hdue hphase, updWrite, writeEntry_eq_updateByte hval hpt, hwrite, andThen_next]
  generalize u.md.buf = buf at hframe
  subst hframe
  exact ⟨_, buf, rfl, rfl, hread⟩

theorem State.Inv.write_position (hinv : s.Inv) {i : Nat} (hphase : s.md.uphase = .write i)
    (hdue : s.md.maskedDue = false) : s.params.cdcScheme = .swap ∧ i < s.md.n := by
  obtain ⟨hposition, -⟩ := hinv.updateInv
  simpa [State.updatePositionOk, hphase, hdue] using hposition

include hinv hlatch hwf in
theorem stepsOn_updWrite {i : Nat} (hphase : s.md.uphase = .write i) (hdue : s.md.maskedDue = false) :
    StepsOn s (exec (.mdUpdate vals pts) s) := by
  obtain ⟨hscheme, hi⟩ := hinv.write_position hphase hdue
  obtain ⟨hconf, hvals, hpts, hfilled⟩ := hinv.updateFacts hlatch hwf (by simp [State.updating, hphase])
  obtain ⟨-, hn, -⟩ := hinv.mdInv.count hconf
  obtain ⟨t, buf, hframe, hexec, hread⟩ := exec_mdUpdate_write_spec hinv.inTick_eq_false hdue hphase
    (Nat.lt_of_lt_of_le hi hn) (hvals ▸ hi) (hpts ▸ hi)
  have hmd : t.md = { s.md with buf := buf, uphase := afterWrite s.md.n i } := by rw [hframe]
  have hlatch' : t.latch = s.latch := by rw [hframe]
  have hparams : t.params = s.params := by rw [hframe]
  have hlatched : t.latchedUpdate = some (vals, pts) := latchedUpdate_mdUpdate (hlatch'.trans hlatch) hwf
  have hposition : t.updatePositionOk = true := by
    rcases afterWrite_cases s.md.n i with ⟨hlt, hnext⟩ | ⟨-, hnext⟩
    · simp [State.updatePositionOk, hmd, hparams, hnext, hdue, hscheme, hlt]
    · simp [State.updatePositionOk, hmd, hparams, hnext, hdue, hscheme]
  have hleft' : t.microStepsLeft = swapStepsLeft s.md.n (afterWrite s.md.n i) := by
    rw [microStepsLeft_of_uphase (hlatch'.trans hlatch) hwf (by rw [hmd]; exact hdue)
      (by rw [hmd]; exact afterWrite_ne_idle _ _), hmd]
  have hentries : ∀ d < t.shadowFilled, t.shadowEntry d = some (updateByte s.params vals pts d) := by
    intro d hd
    have hd' : d < i + 1 := by
      rcases afterWrite_cases s.md.n i with ⟨-, hnext⟩ | ⟨hlast, hnext⟩
      · simpa only [State.shadowFilled, hmd, hnext] using hd
      · simp only [State.shadowFilled, hmd, hnext] at hd
        omega
    rw [State.shadowEntry, hread, hmd]
    by_cases hdi : d = i
    · rw [if_pos ⟨rfl, hdi⟩, hdi]
    · rw [if_neg fun h => hdi h.2]
      have hfilled' : s.shadowFilled = i := by rw [State.shadowFilled, hphase]
      exact hfilled d (by omega)
  refine ⟨t, hexec, hinv.after_update hlatch hwf hexec (by rw [hframe]; exact hinv.masked_eq_false)
    (UpdateFacts.updateInv ⟨?_, ?_, ?_, ?_⟩ hlatched hposition),
    .more ?_ (hleft' ▸ swapStepsLeft_pos ..) hlatch' (by rw [hframe]; rfl)⟩
  · rw [hmd]; exact hconf
  · rw [hmd]; exact hvals
  · rw [hmd]; exact hpts
  · rw [hparams]; exact hentries
  · rw [microStepsLeft_of_uphase hlatch hwf hdue (by rw [hphase]; exact nofun), hphase, hleft', swapStepsLeft_write hi]

include hinv hlatch hwf in
theorem stepsOn_updCommit (hphase : s.md.uphase = .commit) (hdue : s.md.maskedDue = false) :
    StepsOn s (exec (.mdUpdate vals pts) s) := by
  obtain ⟨t, hexec, hframe, -⟩ := updateCommits s vals pts hinv.inTick_eq_false hdue hphase
  have hrest : t.UpdateAtRest := by rw [State.UpdateAtRest, hframe]; exact ⟨rfl, hdue⟩
  refine ⟨t, hexec, hinv.after_update hlatch hwf hexec (by rw [hframe]; exact hinv.masked_eq_false) hrest.updateInv,
    .last ?_ (by rw [hframe]) (.ok, 0x00) (by rw [hframe]; exact responses_append ..)⟩
  rw [microStepsLeft_of_uphase hlatch hwf hdue (by rw [hphase]; exact nofun), hphase]
  rfl

include hinv hlatch hwf in
theorem stepsOn_updMasked (hdue : s.md.maskedDue = true) : StepsOn s (exec (.mdUpdate vals pts) s) := by
  obtain ⟨hconf, hvals, hpts, -⟩ := hinv.updateFacts hlatch hwf (by simp [State.updating, hdue])
  obtain ⟨-, hn, -⟩ := hinv.mdInv.count hconf
  have hphase : s.md.uphase = .idle := by
    obtain ⟨hposition, -⟩ := hinv.updateInv
    cases hu : s.md.uphase with
    | idle => rfl
    | write i => simp [State.updatePositionOk, hu, hdue] at hposition
    | commit => simp [State.updatePositionOk, hu, hdue] at hposition
  obtain ⟨t, hexec, hframe, -⟩ := updateCopiesUnderMask s vals pts hinv.inTick_eq_false hdue hvals hpts hn
  have hrest : t.UpdateAtRest := by rw [State.UpdateAtRest, hframe]; exact ⟨hphase, rfl⟩
  exact ⟨t, hexec, hinv.after_update hlatch hwf hexec (by rw [hframe]) hrest.updateInv,
    .last (microStepsLeft_of_due hlatch hwf hdue) (by rw [hframe]) (.ok, 0x00)
      (by rw [hframe]; exact responses_append ..)⟩

include hinv hlatch hwf in
/-- Every micro-step of MD_UPDATE, by the position. -/
theorem stepsOn_mdUpdate : StepsOn s (exec (.mdUpdate vals pts) s) := by
  cases hdue : s.md.maskedDue with
  | true => exact stepsOn_updMasked hinv hlatch hwf hdue
  | false =>
    cases hphase : s.md.uphase with
    | idle => exact stepsOn_updEntry hinv hlatch hwf hphase hdue
    | write i => exact stepsOn_updWrite hinv hlatch hwf hphase hdue
    | commit => exact stepsOn_updCommit hinv hlatch hwf hphase hdue

end

end Sys2Proof.Machine
end

section
/-! SUPPORT. The steps of the machine under the invariant (R72, R206, R216): every turn keeps it, and only a binding command can
stop. -/

namespace Sys2Proof.Machine

/-! ### A refresh of a bound display (R163–R165) -/

/-- A bound display whose pins are its own: what a refresh needs. -/
structure Refreshable (s : State) : Prop where
  configured : s.md.configured = true
  portsSet : s.md.portsSet = true
  count_le : s.md.n ≤ 8
  idx_lt : s.md.idx < s.md.n
  lit_lt : ∀ a, s.md.activeDigit = some a → a < s.md.n
  data_free : s.GroupFree .md s.md.dataGrp 8
  ctrl_free : s.GroupFree .md s.md.ctrlGrp s.md.n

theorem State.Inv.refreshable {s : State} (h : s.Inv) (hports : s.md.portsSet = true) : Refreshable s := by
  have hconf := h.mdInv.configured hports
  obtain ⟨-, hn, hidx⟩ := h.mdInv.count hconf
  exact ⟨hconf, hports, hn, hidx, fun a ha => (h.mdInv.lit ha).2, fun _ hb => h.dataPin_free hports hb,
    fun _ hd => h.selectPin_free hports hd⟩

/-- A refresh needs the same of states with the same units. -/
theorem Refreshable.congr {s t : State} (h : Refreshable s) (hks : t.ks = s.ks) (hmd : t.md = s.md) : Refreshable t := by
  have hunits : t.units = s.units := Prod.ext hks hmd
  exact ⟨hmd ▸ h.configured, hmd ▸ h.portsSet, hmd ▸ h.count_le, hmd ▸ h.idx_lt, hmd ▸ h.lit_lt,
    (groupFree_congr hunits).mpr (hmd ▸ h.data_free), (groupFree_congr hunits).mpr (hmd ▸ h.ctrl_free)⟩

/-- A refresh of such a display answers: its round-robin, its events, its output latches one by one, and the display is one
again that can be refreshed. -/
theorem Refreshable.exec_mdAdvance {s : State} (h : Refreshable s) (hctx : s.inTick = true) :
    ∃ t, exec .mdAdvance s = .next t ∧
      t = { s with
        md := { s.md with activeDigit := some s.md.idx, idx := (s.md.idx + 1) % s.md.n }
        outs := t.outs
        trace := s.trace ++ refreshEvents s.md (Entry.ofByte ((s.activeEntry s.md.idx).getD 0)) s.md.idx } ∧
      (∀ b p, t.pinOut b p =
        if b = s.md.ctrlGrp.base ∧ p = s.selectPin s.md.idx then s.md.act
        else if s.md.dataGrp.has 8 b p then
          Level.ofBit ((segOut (Entry.ofByte ((s.activeEntry s.md.idx).getD 0)) s.md.pol).getLsbD
            (p - s.md.dataGrp.first.toNat))
        else replayPin (deselectEvents s.md) b p (s.pinOut b p)) ∧
      Refreshable t := by
  have hidx8 : s.md.idx < 8 := Nat.lt_of_lt_of_le h.idx_lt h.count_le
  have hentry : (s.activeEntry s.md.idx).map Entry.ofByte =
      some (Entry.ofByte ((s.activeEntry s.md.idx).getD 0)) := by
    rw [State.activeEntry, State.bufRead, Config.maxDigits, if_pos hidx8]
    rfl
  obtain ⟨t, hrefresh, hframe, hout, -⟩ := mdRefresh_spec hentry (fun a ha => h.ctrl_free a (h.lit_lt a ha)) h.data_free
    (h.ctrl_free _ h.idx_lt)
  refine ⟨t, (exec_mdAdvance_bound hctx h.configured h.portsSet).trans hrefresh, hframe, hout, ?_⟩
  have hmd : t.md = { s.md with activeDigit := some s.md.idx, idx := (s.md.idx + 1) % s.md.n } := by rw [hframe]
  have hks : t.ks = s.ks := by rw [hframe]
  have hfree {g : Group} {n : Nat} (hg : s.GroupFree .md g n) : t.GroupFree .md g n := fun i hi => by
    rw [State.conflict, State.ksBound, hks]
    exact hg i hi
  have hpos : 0 < s.md.n := Nat.lt_of_le_of_lt (Nat.zero_le _) h.idx_lt
  refine ⟨?_, ?_, ?_, ?_, ?_, ?_, ?_⟩
  · rw [hmd]; exact h.configured
  · rw [hmd]; exact h.portsSet
  · rw [hmd]; exact h.count_le
  · rw [hmd]; exact Nat.mod_lt _ hpos
  · rw [hmd]
    rintro a ⟨⟩
    exact h.idx_lt
  · rw [hmd]; exact hfree h.data_free
  · rw [hmd]; exact hfree h.ctrl_free

@[simp] theorem selectPin_inj {s : State} {d d' : Nat} : s.selectPin d = s.selectPin d' ↔ d = d' := by
  simp [State.selectPin]

/-- What the deselect leaves in a select pin that is at md.act exactly if its digit is lit: the inactive level. -/
theorem replayPin_deselectEvents {s : State} {d : Nat} {lv : Level}
    (hlv : lv = if s.md.activeDigit = some d then s.md.act else s.md.act.inv) :
    replayPin (deselectEvents s.md) s.md.ctrlGrp.base (s.selectPin d) lv = s.md.act.inv := by
  unfold deselectEvents
  cases hdigit : s.md.activeDigit with
  | none => simpa [hdigit, replayPin] using hlv
  | some a =>
    refine (replayPin_write ..).trans ?_
    by_cases hda : d = a
    · exact if_pos ⟨rfl, by rw [State.selectPin, hda]⟩
    · rw [if_neg fun h => hda (selectPin_inj.mp h.2), hlv, if_neg fun h => hda (Option.some.inj (hdigit.symm.trans h)).symm]

/-- A refresh keeps MD's part of the invariant: the shown digit's select pin alone is at md.act. -/
theorem State.MdInv.after_refresh {s t : State} (h : s.MdInv) (hports : s.md.portsSet = true) {e : Entry}
    (hmd : t.md = { s.md with activeDigit := some s.md.idx, idx := (s.md.idx + 1) % s.md.n }) (hdirs : t.dirs = s.dirs)
    (hout : ∀ b p, t.pinOut b p =
      if b = s.md.ctrlGrp.base ∧ p = s.selectPin s.md.idx then s.md.act
      else if s.md.dataGrp.has 8 b p then Level.ofBit ((segOut e s.md.pol).getLsbD (p - s.md.dataGrp.first.toNat))
      else replayPin (deselectEvents s.md) b p (s.pinOut b p)) : t.MdInv := by
  obtain ⟨hn, hnMax, hidx⟩ := h.count (h.configured hports)
  obtain ⟨-, -, hbound⟩ := h
  obtain ⟨hconf, hdataFit, hctrlFit, hsep, hselect, hdata⟩ := hbound hports
  have hdir (b : PortBase) (p : Nat) : t.pinDir b p = s.pinDir b p := by rw [State.pinDir, State.pinDir, hdirs]
  simp only [State.MdInv, State.SelectInv, State.selectPin, State.dataPin, hmd, hdir]
  refine ⟨fun _ => ⟨hn, hnMax, Nat.mod_lt _ (by omega)⟩, by simp [hports, hidx],
    fun _ => ⟨hconf, hdataFit, hctrlFit, hsep, fun d hd => ⟨(hselect d hd).1, ?_⟩, hdata⟩⟩
  have hnotData : ¬ s.md.dataGrp.has 8 s.md.ctrlGrp.base (s.selectPin d) = true :=
    fun hpin => Group.not_has_of_overlap hsep hpin (Group.has_pin hd)
  refine (hout _ (s.selectPin d)).trans ?_
  rw [if_neg hnotData, replayPin_deselectEvents (hselect d hd).2]
  simp only [true_and, selectPin_inj, Option.some.injEq, eq_comm]

/-! ### The turns (R72) -/

/-- TICK's step answers and keeps the invariant. -/
theorem tickStep_keeps_inv {s : State} (h : s.Inv) : ∃ t, tickStep s = .next t ∧ t.Inv := by
  cases hready : s.tickReady with
  | false => exact ⟨s, tickStep_of_not_ready hready, h⟩
  | true =>
    obtain ⟨u, hexec, hmd⟩ : ∃ u, exec .mdAdvance (enterTick s) = .next u ∧ u.MdInv := by
      cases hports : s.md.portsSet with
      | false => exact ⟨_, exec_mdAdvance_unbound rfl (.inr hports), h.mdInv⟩
      | true =>
        obtain ⟨u, hexec, hframe, hout, -⟩ := ((h.refreshable hports).congr (t := enterTick s) rfl rfl).exec_mdAdvance rfl
        exact ⟨u, hexec, State.MdInv.after_refresh (s := enterTick s) h.mdInv hports (by rw [hframe]) (by rw [hframe]) hout⟩
    have hstep : tickStep s = .next (leaveTick u) := by rw [tickStep_of_ready hready, hexec, andThen_next]
    have hframe := tickChangesNoMainState s _ hready hstep
    obtain ⟨hram, hks, hscan, -, hdisjoint, hupdate, hmask, -⟩ := h
    have hpins := exec_foreignPins hexec
    have hram' : u.RamInv := exec_ramInv hexec hram
    refine ⟨leaveTick u, hstep, hram',
      hks.of_foreignPins (by rw [hframe]) (by rw [hframe]) ⟨hpins.bound, hpins.dir, hpins.out⟩, ?_, hmd, ?_, ?_, ?_⟩
    · rw [hframe]; exact hscan
    · rw [hframe]; exact hdisjoint
    · rw [hframe]; exact hupdate
    · rw [hframe]; exact ⟨hmask, rfl⟩

/-- Issuing a frame keeps the invariant: with no command in flight nothing is under way. -/
theorem State.Inv.issue {s : State} (h : s.Inv) : s.issue.Inv := by
  unfold State.issue
  split
  · next f rest hlatch hcmds =>
    have hidle := h.phase_idle (by rw [hlatch]; exact nofun)
    have hrest := h.updateAtRest (by simp only [State.latchedUpdate, hlatch])
    obtain ⟨hram, hks, hscan, hmd, hdisjoint, -, hctx⟩ := h
    exact ⟨hram, hks, hscan.of_idle rfl hidle, hmd, hdisjoint, State.UpdateAtRest.updateInv hrest, hctx⟩
  · exact h

/-- The command binds pins: a KS_CONFIGURE or an MD_SETPORTS. -/
def Binds (i : Instr) : Prop :=
  (∃ geom k lines cols map, i = .ksConfigure geom k lines cols map) ∨ ∃ data ctrl act, i = .mdSetPorts data ctrl act

/-- A micro-step of the command in the latch, or the answer to an illegal frame there: it answers, keeps the invariant and brings
the response one nearer, or it is a binding command that stops with PinConflict. -/
theorem mainStep_stepsOn {s : State} {f : Frame} (h : s.Inv) (hlatch : s.latch = some f) :
    StepsOn s (mainStep s) ∨
      mainStep s = .fault .pinConflict ∧ ∃ i, decodeFrame .command f = .ok i ∧ Binds i := by
  have hissue : s.issue = s := issue_of_latch hlatch
  cases hdec : decodeFrame .command f with
  | error r =>
    have hstep : mainStep s = raise .illegalCommand 0x00 s := by
      rw [mainStep_of_decode_error (hissue.symm ▸ hlatch) hdec, hissue]
    have hpoll : s.latch ≠ some (encodeFrame .ksPoll) := by
      rw [hlatch]
      rintro ⟨⟩
      cases hdec
    refine .inl (hstep ▸ h.stepsOn_raise (h.phase_idle hpoll) (h.updateAtRest ?_) ?_ ..)
    · simp only [State.latchedUpdate, hlatch, hdec]
    · simp only [State.microStepsLeft, hlatch, hdec]
  | ok i =>
    obtain ⟨hwf, hport, rfl⟩ := frameOf_decodeFrame hdec
    rw [mainStep_of_decode (hissue.symm ▸ hlatch) hdec, hissue]
    cases i with
    | ksConfigure geom k lines cols map =>
      exact (stepsOn_ksConfigure h hlatch hwf).imp_right fun hfault =>
        ⟨hfault, _, rfl, .inl ⟨geom, k, lines, cols, map, rfl⟩⟩
    | ksPoll => exact .inl (stepsOn_ksPoll h hlatch)
    | mdConfigure ndig pol => exact .inl (stepsOn_mdConfigure h hlatch)
    | mdSetPorts data ctrl act =>
      exact (stepsOn_mdSetPorts h hlatch).imp_right fun hfault => ⟨hfault, _, rfl, .inr ⟨data, ctrl, act, rfl⟩⟩
    | mdUpdate vals pts => exact .inl (stepsOn_mdUpdate h hlatch hwf)
    | mdAdvance => cases hport

/-- MAIN's step answers and keeps the invariant, or it is a binding command that stops with PinConflict. -/
theorem mainStep_keeps_inv {s : State} (h : s.Inv) :
    (∃ t, mainStep s = .next t ∧ t.Inv) ∨
      mainStep s = .fault .pinConflict ∧ ∃ f i, s.issue.latch = some f ∧ decodeFrame .command f = .ok i ∧ Binds i := by
  cases hlatch : s.issue.latch with
  | none => exact .inl ⟨_, mainStep_of_no_latch hlatch, h.issue⟩
  | some f =>
    have hstep : mainStep s.issue = mainStep s := by
      rw [mainStep, mainStep, issue_of_latch hlatch]
    rcases mainStep_stepsOn h.issue hlatch with ⟨t, ht, hinv, -⟩ | ⟨hfault, i, hdec, hi⟩
    · exact .inl ⟨t, hstep ▸ ht, hinv⟩
    · exact .inr ⟨hstep ▸ hfault, f, i, rfl, hdec, hi⟩

/-- A reset leaves the invariant: the registers are the reset state's, and the pin stores keep their form or list nothing. -/
theorem systemReset_inv {s : State} (h : s.Inv) (pinsKept : Bool) : (systemReset pinsKept s).Inv := by
  obtain ⟨⟨hmap, hmapEnd, hbuf, hbufEnd, -, -⟩, -, hscan, -⟩ := resetMeetsInv
  obtain ⟨⟨-, -, -, -, hdirs, houts⟩, -⟩ := h
  have hdirs' : Cells.wf (systemReset pinsKept s).dirs := by
    cases pinsKept with
    | false => exact List.Pairwise.nil
    | true => exact hdirs
  have houts' : Cells.wf (systemReset pinsKept s).outs := by
    cases pinsKept with
    | false => exact List.Pairwise.nil
    | true => exact houts
  have hunset {P : Prop} (hfalse : false = true) : P := nomatch hfalse
  exact ⟨⟨hmap, hmapEnd, hbuf, hbufEnd, hdirs', houts'⟩, hunset, hscan, ⟨hunset, rfl, hunset⟩, hunset,
    ⟨rfl, hunset⟩, rfl, rfl⟩

/-- Every turn answers and keeps the invariant, or it is MAIN's and a binding command stops with PinConflict. -/
theorem runTurn_keeps_inv {s : State} (h : s.Inv) (turn : Turn) :
    (∃ t, runTurn turn s = .next t ∧ t.Inv) ∨
      runTurn turn s = .fault .pinConflict ∧ turn = .main ∧
        ∃ f i, s.issue.latch = some f ∧ decodeFrame .command f = .ok i ∧ Binds i := by
  cases turn with
  | main => exact (mainStep_keeps_inv h).imp_right fun ⟨hfault, hbinds⟩ => ⟨hfault, rfl, hbinds⟩
  | tick => exact .inl (tickStep_keeps_inv h)
  | strobe => exact .inl ⟨_, rfl, h⟩
  | reset pinsKept => exact .inl ⟨_, rfl, systemReset_inv h pinsKept⟩

/-- Taking a turn off the schedule keeps the invariant, which says nothing of it. -/
theorem State.Inv.popTurn {s : State} (h : s.Inv) : s.popTurn.Inv := h

/-- A turn that answers keeps the invariant. -/
theorem runTurn_inv {s t : State} {turn : Turn} (h : s.Inv) (hrun : runTurn turn s = .next t) : t.Inv := by
  rcases runTurn_keeps_inv h turn with ⟨u, hu, hinv⟩ | ⟨hfault, -⟩
  · rw [hu, next_inj] at hrun
    exact hrun ▸ hinv
  · rw [hfault] at hrun
    cases hrun

/-- Settles O52: a step is a turn. -/
theorem stepKeepsInv : Obligations.StepKeepsInv :=
  fun _ _ h hstep => runTurn_inv h.popTurn hstep

/-- Settles O53: a step is a turn, which answers or stops as one of the two binding commands. -/
theorem onlyBindingCommandsStop : Obligations.OnlyBindingCommandsStop := by
  intro s h
  rcases runTurn_keeps_inv h.popTurn s.turn with ⟨t, ht, -⟩ | ⟨hfault, hturn, hbinds⟩
  · exact .inl ⟨t, ht⟩
  · exact .inr ⟨hfault, hturn, hbinds⟩

end Sys2Proof.Machine
end

section
/-! SUPPORT. Runs under the invariant (R76, R206, R216): every command reaches its response, a pending tick becomes TICK's to take,
and the pins a step reads are input columns. -/

namespace Sys2Proof.Machine

/-! ### Every command completes (R216) -/

theorem microStepsLeft_le_of_mdUpdate {s : State} {vals pts : List Byte} (h : s.Inv)
    (hlatch : s.latch = some (encodeFrame (.mdUpdate vals pts))) (hwf : (Instr.mdUpdate vals pts).wf = true) :
    s.microStepsLeft ≤ 32 := by
  cases hdue : s.md.maskedDue with
  | true =>
    rw [microStepsLeft_of_due hlatch hwf hdue]
    decide
  | false =>
    by_cases hphase : s.md.uphase = .idle
    · cases hcheck : updateValidate s.md vals pts with
      | error kind =>
        rw [microStepsLeft_of_entry_error hlatch hwf hdue hphase hcheck]
        decide
      | ok u =>
        obtain ⟨hconf, -⟩ := updateValidate_eq_ok.mp hcheck
        obtain ⟨-, hn, -⟩ := h.mdInv.count hconf
        cases hscheme : s.params.cdcScheme with
        | swap =>
          rw [microStepsLeft_of_entry_swap hlatch hwf hdue hphase hcheck hscheme]
          omega
        | mask =>
          rw [microStepsLeft_of_entry_mask hlatch hwf hdue hphase hcheck hscheme]
          decide
    · obtain ⟨hconf, -⟩ := h.updateFacts hlatch hwf (by simp [State.updating, hphase])
      obtain ⟨-, hn, -⟩ := h.mdInv.count hconf
      rw [microStepsLeft_of_uphase hlatch hwf hdue hphase]
      cases s.md.uphase <;> simp only [swapStepsLeft] <;> omega

/-- No command has more than 32 micro-steps left. -/
theorem microStepsLeft_le {s : State} (h : s.Inv) {f : Frame} (hlatch : s.latch = some f) : s.microStepsLeft ≤ 32 := by
  cases hdec : decodeFrame .command f with
  | error r => simp [State.microStepsLeft, hlatch, hdec]
  | ok i =>
    obtain ⟨hwf, hport, rfl⟩ := frameOf_decodeFrame hdec
    cases i with
    | ksPoll =>
      rw [microStepsLeft_ksPoll hlatch]
      split
      · exact pollStepsLeft_le h.phase_inRange
      · decide
    | mdUpdate vals pts => exact microStepsLeft_le_of_mdUpdate h hlatch hwf
    | _ => exact (microStepsLeft_eq_one hlatch hwf hport nofun fun _ _ => nofun).trans_le (by decide)

theorem microStepsLeft_of_binds {s : State} {f : Frame} {i : Instr} (hlatch : s.latch = some f)
    (hdec : decodeFrame .command f = .ok i) (hi : Binds i) : s.microStepsLeft = 1 := by
  rcases hi with ⟨geom, k, lines, cols, map, rfl⟩ | ⟨data, ctrl, act, rfl⟩ <;>
    simp only [State.microStepsLeft, hlatch, hdec]

/-- MAIN's turns, as many as micro-steps are left: the response, or a binding command's conflict. -/
theorem run_to_response {f : Frame} (n : Nat) {s : State} (h : s.Inv) (hlatch : s.latch = some f)
    (hn : s.microStepsLeft = n) :
    (∃ t r, runTurns (List.replicate n .main) s = .next t ∧ t.latch = none ∧ t.answers = s.answers ++ [r]) ∨
      runTurns (List.replicate n .main) s = .fault .pinConflict ∧ ∃ i, decodeFrame .command f = .ok i ∧ Binds i := by
  induction n generalizing s with
  | zero =>
    rcases mainStep_stepsOn h hlatch with ⟨t, -, -, hstep⟩ | ⟨-, i, hdec, hi⟩
    · cases hstep <;> omega
    · rw [microStepsLeft_of_binds hlatch hdec hi] at hn
      cases hn
  | succ n ih =>
    have hrun : runTurns (List.replicate (n + 1) .main) s =
        andThen (mainStep s) (runTurns (List.replicate n .main)) := rfl
    rw [hrun]
    rcases mainStep_stepsOn h hlatch with ⟨t, ht, hinv, hstep⟩ | ⟨hfault, hbinds⟩
    · rw [ht, andThen_next]
      cases hstep with
      | last hleft hfree r hanswers =>
        obtain rfl : n = 0 := by omega
        exact .inl ⟨t, r, rfl, hfree, hanswers⟩
      | more hleft hpos hsame hanswers =>
        rw [← hanswers]
        exact ih hinv (hsame.trans hlatch) (by omega)
    · rw [hfault]
      exact .inr ⟨rfl, hbinds⟩

/-- Settles O54: a micro-step is the last of its command or leaves one fewer, and so the run of all that are left answers. -/
theorem commandsComplete : Obligations.CommandsComplete := by
  refine ⟨fun s t f h hlatch hrun => ?_, fun s f h hlatch => run_to_response _ h hlatch rfl⟩
  change mainStep s = .next t at hrun
  rcases mainStep_stepsOn h hlatch with ⟨u, hu, -, hstep⟩ | ⟨hfault, -⟩
  · obtain rfl : u = t := by rwa [hu, next_inj] at hrun
    have hmax := microStepsLeft_le h hlatch
    cases hstep with
    | last hleft hfree r hanswers =>
      exact ⟨Nat.le_of_eq hleft.symm, hmax, fun _ => ⟨hfree, r, hanswers⟩, fun hmore => absurd hleft (by omega)⟩
    | more hleft hpos hsame hanswers =>
      exact ⟨by omega, hmax, fun hlast => absurd hlast (by omega), fun _ => ⟨hsame.trans hlatch, hleft.symm, hanswers⟩⟩
  · rw [hfault] at hrun
    cases hrun

/-- Fewer turns of MAIN than micro-steps are left: the command is still in flight, that many micro-steps nearer to its response,
and nothing is answered. -/
theorem run_before_response {f : Frame} (j : Nat) {s t : State} (h : s.Inv) (hlatch : s.latch = some f)
    (hj : j < s.microStepsLeft) (hrun : runTurns (List.replicate j .main) s = .next t) :
    t.Inv ∧ t.latch = some f ∧ t.microStepsLeft + j = s.microStepsLeft ∧ t.answers = s.answers := by
  induction j generalizing s with
  | zero =>
    obtain rfl := (next_inj ..).mp hrun
    exact ⟨h, hlatch, rfl, rfl⟩
  | succ j ih =>
    obtain ⟨u, hstep, hrest⟩ := andThen_eq_next.mp hrun
    rcases mainStep_stepsOn h hlatch with ⟨u', hu', hinv, hmicro⟩ | ⟨hfault, -⟩
    · obtain rfl : u' = u := (next_inj ..).mp (hu'.symm.trans hstep)
      cases hmicro with
      | last hleft => omega
      | more hleft hpos hsame hanswers =>
        obtain ⟨htinv, htlatch, htleft, htanswers⟩ := ih hinv (hsame.trans hlatch) (by omega) hrest
        exact ⟨htinv, htlatch, by omega, htanswers.trans hanswers⟩
    · cases hfault.symm.trans hstep

/-! ### A pending tick (R206, log entry 2) -/

@[simp] theorem issue_ks (s : State) : s.issue.ks = s.ks := by unfold State.issue; split <;> rfl
@[simp] theorem issue_md (s : State) : s.issue.md = s.md := by unfold State.issue; split <;> rfl
@[simp] theorem issue_dirs (s : State) : s.issue.dirs = s.dirs := by unfold State.issue; split <;> rfl
@[simp] theorem issue_sched (s : State) : s.issue.sched = s.sched := by unfold State.issue; split <;> rfl
@[simp] theorem issue_tickPending (s : State) : s.issue.tickPending = s.tickPending := by
  unfold State.issue; split <;> rfl

/-- MAIN's step writes neither the schedule nor the pending bit. -/
theorem mainStep_keeps_sched {s t : State} (h : mainStep s = .next t) :
    t.sched = s.sched ∧ t.tickPending = s.tickPending := by
  rcases mainStep_cases h with ⟨-, rfl⟩ | ⟨f, i, -, -, hexec⟩ | ⟨f, r, -, -, rfl⟩
  · simp
  · obtain ⟨-, hsched, -, hpending, -⟩ := exec_outside hexec
    exact ⟨hsched.trans (issue_sched s), hpending.trans (issue_tickPending s)⟩
  · simp

theorem turn_of_sched_cons {s : State} {t : Turn} {rest : List Turn} (h : s.sched = t :: rest) : s.turn = t := by
  simp only [State.turn, h]

theorem run_succ_of_next {s t : State} (h : step s = .next t) (k : Nat) :
    Host.Core.run core (k + 1) s = Host.Core.run core k t := by
  have hstep : core.step s = .next t := h
  simp only [Host.Core.run, hstep]

theorem run_succ_of_fault {s : State} {r : Fault} (h : step s = .fault r) (k : Nat) :
    Host.Core.run core (k + 1) s = .fault r := by
  have hstep : core.step s = .fault r := h
  simp only [Host.Core.run, hstep]

/-- Settles O55, by induction on the schedule: at TICK's turn or at the end of the schedule the tick is TICK's to take; a turn of
MAIN or a strobe leaves it pending; and the invariant leaves a conflict as the only stop. -/
theorem pendingTickIsTaken : Obligations.PendingTickIsTaken := by
  intro s h hpending hsched
  generalize hturns : s.sched = turns
  rw [hturns] at hsched
  induction turns generalizing s with
  | nil =>
    have hready : s.tickReady = true := tickReady_iff.mpr ⟨hpending, h.masked_eq_false⟩
    exact ⟨0, Nat.le_refl 0, .inl ⟨s, rfl, by simp only [State.turn, hturns, hready, if_true], hready⟩⟩
  | cons turn rest ih =>
    have hturn := turn_of_sched_cons hturns
    by_cases htick : turn = .tick
    · exact ⟨0, Nat.zero_le _, .inl ⟨s, rfl, hturn.trans htick, tickReady_iff.mpr ⟨hpending, h.masked_eq_false⟩⟩⟩
    · have hstep : step s = runTurn turn s.popTurn := by rw [step, takeTurn, hturn]
      have hrunning : turn.running = true := hsched turn List.mem_cons_self
      have hafter (t : State) (ht : step s = .next t) : t.sched = rest ∧ t.tickPending = true := by
        rw [hstep] at ht
        have hpop : s.popTurn.sched = rest := by rw [popTurn_sched, hturns, List.drop_one, List.tail_cons]
        cases turn with
        | main =>
          obtain ⟨hsched', hpending'⟩ := mainStep_keeps_sched ht
          exact ⟨hsched'.trans hpop, hpending'.trans hpending⟩
        | tick => exact absurd rfl htick
        | strobe =>
          obtain rfl := (next_inj ..).mp ht
          exact ⟨hpop, rfl⟩
        | reset pinsKept => cases hrunning
      rcases onlyBindingCommandsStop s h with ⟨t, ht⟩ | ⟨hfault, -⟩
      · obtain ⟨hsched', hpending'⟩ := hafter t ht
        obtain ⟨k, hk, hends⟩ := ih t (stepKeepsInv s t h ht) hpending'
          (fun x hx => hsched x (List.mem_cons_of_mem _ hx)) hsched'
        exact ⟨k + 1, Nat.succ_le_succ hk, by rwa [run_succ_of_next ht]⟩
      · exact ⟨1, Nat.succ_le_succ (Nat.zero_le _), .inr (run_succ_of_fault hfault 0)⟩

/-! ### What a step reads (R76) -/

/-- If the observation is a read, it is on a column pin of a configured keypad. -/
def ReadsColumn (s : State) (e : Obs) : Prop :=
  ∀ base pin lv, e = .read base pin lv →
    s.ks.configured = true ∧ base = s.ks.colGrp.base ∧ ∃ j < s.ks.cols, pin = s.colPin j

theorem NoRead.readsColumn {s : State} {e : Obs} (h : NoRead e) : ReadsColumn s e :=
  fun base pin lv he => absurd he (h base pin lv)

/-- A micro-step of KS_POLL reads a column pin in SAMPLE(l, c), and no pin elsewhere. -/
theorem exec_ksPoll_emitted {s t : State} (h : s.Inv) (hexec : exec .ksPoll s = .next t) :
    Emitted (ReadsColumn s) s t := by
  have hctx := h.inTick_eq_false
  have hwrite (base : PortBase) (pin : Nat) (lv : Level) : ReadsColumn s (.write base pin lv) :=
    NoRead.readsColumn fun _ _ _ => nofun
  have hresp (res : Result) (data : Byte) : ReadsColumn s (.response res data) :=
    NoRead.readsColumn fun _ _ _ => nofun
  cases hphase : s.ks.phase with
  | idle =>
    obtain ⟨hfalse, htrue⟩ := pollEntry_branches s hctx hphase
    cases hconf : s.ks.configured with
    | false =>
      obtain rfl := (next_inj ..).mp ((hfalse hconf).symm.trans hexec)
      exact .of_one rfl (hresp _ _)
    | true =>
      obtain rfl := (next_inj ..).mp ((htrue hconf).symm.trans hexec)
      exact .of_trace_eq rfl
  | drive l =>
    obtain ⟨u, hrun, hframe, -⟩ := pollDrive_spec (h.linePin_free_of_phase (.inl hphase))
    obtain rfl := (next_inj ..).mp ((exec_ksPoll_drive hctx hphase).trans hrun |>.symm.trans hexec)
    exact .of_one (congrArg State.trace hframe) (hwrite _ _ _)
  | settle l =>
    obtain rfl := (next_inj ..).mp ((pollSettles s l hctx hphase).symm.trans hexec)
    exact .of_trace_eq rfl
  | sample l c =>
    have hconf := h.configured_of_phase (by simp [hphase])
    obtain ⟨-, hc⟩ : l < s.ks.geom.lines ∧ c < s.ks.geom.cols := inRange_sample.mp (hphase ▸ h.phase_inRange)
    obtain rfl := (next_inj ..).mp
      ((pollSamplesColumn s l c _ hctx hphase (h.colPin_free hconf hc) rfl).symm.trans hexec)
    refine .of_one rfl ?_
    rintro base pin lv ⟨⟩
    exact ⟨hconf, rfl, c, hc, rfl⟩
  | release l =>
    obtain ⟨u, hrun, hframe, -⟩ := pollRelease_spec (h.linePin_free_of_phase (.inr hphase))
    obtain rfl := (next_inj ..).mp ((exec_ksPoll_release hctx hphase).trans hrun |>.symm.trans hexec)
    exact .of_one (congrArg State.trace hframe) (hwrite _ _ _)
  | decide =>
    obtain ⟨new, hnew⟩ := candidate_of_hit_lt h.hit_all
    obtain rfl := (next_inj ..).mp
      (((exec_ksPoll_decide hctx hphase).trans (pollDecide_of_candidate hnew)).symm.trans hexec)
    exact .of_one rfl (hresp _ _)

/-- What a step emits, of which the reads are on column pins. -/
theorem step_emitted {s t : State} (h : s.Inv) (hstep : step s = .next t) : Emitted (ReadsColumn s) s t := by
  have hnoRead {u v : State} (hemit : Emitted NoRead u v) : Emitted (ReadsColumn s) u v := by
    obtain ⟨evs, htrace, hevs⟩ := hemit
    exact ⟨evs, htrace, fun e he => (hevs e he).readsColumn⟩
  change runTurn s.turn s.popTurn = .next t at hstep
  cases hturn : s.turn with
  | main =>
    rw [hturn] at hstep
    have htrace : s.popTurn.issue.trace = s.trace := by simp
    have hks : s.popTurn.issue.ks = s.ks := by simp
    rcases mainStep_cases hstep with ⟨-, rfl⟩ | ⟨f, i, -, -, hexec⟩ | ⟨f, r, -, -, rfl⟩
    · exact .of_trace_eq htrace
    · refine Emitted.trans (.of_trace_eq htrace) ?_
      by_cases hi : i = .ksPoll
      · subst hi
        obtain ⟨evs, hevsTrace, hevs⟩ := exec_ksPoll_emitted h.popTurn.issue hexec
        refine ⟨evs, hevsTrace, fun e he base pin lv heq => ?_⟩
        simpa only [State.colPin, hks] using hevs e he base pin lv heq
      · exact hnoRead (exec_emitted_noRead hi hexec)
    · exact .of_one (e := .response .illegalCommand 0x00) (by rw [respond_trace, htrace])
        (NoRead.readsColumn fun _ _ _ => nofun)
  | tick =>
    rw [hturn] at hstep
    rcases tickStep_cases hstep with ⟨-, rfl⟩ | ⟨-, u, hexec, rfl⟩
    · exact .of_trace_eq rfl
    · have hemit : Emitted NoRead (enterTick s.popTurn) u := exec_emitted_noRead (i := .mdAdvance) nofun hexec
      exact hnoRead (u := s) (v := leaveTick u) hemit
  | strobe =>
    rw [hturn] at hstep
    obtain rfl := (next_inj ..).mp hstep
    exact .of_trace_eq rfl
  | reset pinsKept =>
    rw [hturn] at hstep
    obtain rfl := (next_inj ..).mp hstep
    exact .of_trace_eq rfl

/-- Settles O56: a read is on a column pin, and the invariant keeps column pins inputs. -/
theorem readsOnlyInputColumns : Obligations.ReadsOnlyInputColumns := by
  intro s t base pin lv h hstep hmem
  obtain ⟨evs, htrace, hevs⟩ := step_emitted h hstep
  rw [htrace, List.drop_left] at hmem
  obtain ⟨hconf, rfl, j, hj, rfl⟩ := hevs _ hmem base pin lv rfl
  obtain ⟨-, hks, -⟩ := h
  obtain ⟨-, -, -, -, -, -, -, hcols⟩ := hks hconf
  exact ⟨hconf, rfl, ⟨j, hj, rfl⟩, hcols j hj⟩

end Sys2Proof.Machine
end

section
/-! SUPPORT. A whole configured KS_POLL (R115–R127): the state of the scan after each micro-step, by induction over the columns
of a line and over the lines, and what DECIDE makes of it. -/

namespace Sys2Proof.Machine

/-! ### Iterated micro-steps -/

@[simp] theorem iterExec_zero (i : Instr) (s : State) : iterExec i 0 s = .next s := rfl

theorem andThen_assoc (o : Out) (f g : State → Out) :
    andThen (andThen o f) g = andThen o fun s => andThen (f s) g := by
  cases o <;> rfl

theorem iterExec_succ (i : Instr) (n : Nat) (s : State) : iterExec i (n + 1) s = andThen (iterExec i n s) (exec i) := by
  induction n generalizing s with
  | zero =>
    rw [iterExec_zero, andThen_next, iterExec]
    cases exec i s <;> rfl
  | succ n ih =>
    calc iterExec i (n + 1 + 1) s
        = andThen (exec i s) (iterExec i (n + 1)) := rfl
      _ = andThen (exec i s) fun u => andThen (iterExec i n u) (exec i) := by rw [funext ih]
      _ = andThen (iterExec i (n + 1) s) (exec i) := (andThen_assoc ..).symm

theorem iterExec_succ_of_next {i : Instr} {n : Nat} {s t : State} (h : iterExec i n s = .next t) :
    iterExec i (n + 1) s = exec i t := by
  rw [iterExec_succ, h, andThen_next]

/-! ### The parts of a scan -/

/-- A configured keypad at rest that MAIN can scan: its pins are its own, and no line is active. -/
structure Scannable (s : State) : Prop where
  inTick_eq : s.inTick = false
  configured : s.ks.configured = true
  idle : s.ks.phase = .idle
  line_free : ∀ i < s.ks.lines, s.mdBound s.ks.lineGrp.base (s.linePin i) = false
  col_free : ∀ j < s.ks.cols, s.mdBound s.ks.colGrp.base (s.colPin j) = false
  line_inactive : ∀ i < s.ks.lines, s.pinOut s.ks.lineGrp.base (s.linePin i) = inactiveKp s.params

theorem State.Inv.scannable {s : State} (h : s.Inv) (hconf : s.ks.configured = true) (hidle : s.ks.phase = .idle) :
    Scannable s where
  inTick_eq := h.inTick_eq_false
  configured := hconf
  idle := hidle
  line_free _ := h.linePin_free hconf
  col_free _ := h.colPin_free hconf
  line_inactive i hi := by
    rw [h.pinOut_line hconf hi, hidle, if_neg (by simp [Phase.activeLine])]

/-- The first active pair among the first `n` reads. -/
def hitAmong (s : State) (n : Nat) : Option Nat :=
  (List.range n).find? fun i => s.readLevel (i / s.ks.cols) (i % s.ks.cols) = s.params.kpActive

/-- The reads of the first `c` columns of line l. -/
def columnReads (s : State) (l c : Nat) : List Obs :=
  (List.range c).map fun c => .read s.ks.colGrp.base (s.colPin c) (s.readLevel l c)

/-- The write of line l's pin. -/
def lineWrite (s : State) (l : Nat) (lv : Level) : Obs := .write s.ks.lineGrp.base (s.linePin l) lv

/-- The events of the first `l` lines. -/
def lineEvents (s : State) (l : Nat) : List Obs :=
  (List.range l).flatMap fun l =>
    lineWrite s l s.params.kpActive :: (columnReads s l s.ks.cols ++ [lineWrite s l (inactiveKp s.params)])

section
variable (s : State)

theorem hitAmong_lines : hitAmong s (s.ks.lines * s.ks.cols) = firstActive s := rfl

theorem lineEvents_lines : lineEvents s s.ks.lines = pollEvents s := rfl

theorem firstActive_lt {s : State} {i : Nat} (hi : firstActive s = some i) : i < s.ks.lines * s.ks.cols :=
  List.mem_range.mp (List.mem_of_find?_eq_some hi)

theorem columnReads_succ (l c : Nat) :
    columnReads s l (c + 1) = columnReads s l c ++ [.read s.ks.colGrp.base (s.colPin c) (s.readLevel l c)] := by
  simp [columnReads, List.range_succ]

theorem lineEvents_succ (l : Nat) :
    lineEvents s (l + 1) = lineEvents s l ++ [lineWrite s l s.params.kpActive] ++ columnReads s l s.ks.cols ++
      [lineWrite s l (inactiveKp s.params)] := by
  simp [lineEvents, List.range_succ]

theorem length_lineEvents (l : Nat) : (lineEvents s l).length = l * (s.ks.cols + 2) := by
  simp [lineEvents, columnReads, List.length_flatMap]

theorem hitAmong_succ {l c : Nat} (hc : c < s.ks.cols) :
    hitAmong s (l * s.ks.cols + c + 1) =
      if s.readLevel l c = s.params.kpActive ∧ hitAmong s (l * s.ks.cols + c) = none then some (l * s.ks.cols + c)
      else hitAmong s (l * s.ks.cols + c) := by
  have hline : (l * s.ks.cols + c) / s.ks.cols = l := by
    rw [Nat.mul_comm, Nat.mul_add_div (by omega), Nat.div_eq_of_lt hc, Nat.add_zero]
  have hcol : (l * s.ks.cols + c) % s.ks.cols = c := by rw [Nat.mul_add_mod_self_right, Nat.mod_eq_of_lt hc]
  rw [hitAmong, List.range_succ, List.find?_append, ← hitAmong, List.find?_singleton, hline, hcol]
  cases hitAmong s (l * s.ks.cols + c) <;> simp

/-- The draws left after `n` reads answer what the draws answered `n` reads on. -/
theorem drawAt_drop (n : Nat) {u : State} (hdraws : u.draws = s.draws.drop n) (hdrawn : u.drawn = s.drawn + n)
    (base : PortBase) (pin : Nat) : u.drawAt 0 base pin = s.drawAt n base pin := by
  simp only [State.drawAt, hdraws, hdrawn, List.getElem?_drop, Nat.add_zero]

end

/-! ### The state in mid-scan -/

/-- The scan that started in `s`, in state `u` at phase `p`, with `n` reads made and `evs` emitted: of the pins only the line
the phase holds active differs from what it was. -/
structure ScanAt (s : State) (p : Phase) (n : Nat) (evs : List Obs) (u : State) : Prop where
  frame : u = { s with
    ks := { s.ks with phase := p, hit := hitAmong s n }
    outs := u.outs
    trace := s.trace ++ evs
    draws := s.draws.drop n
    drawn := s.drawn + n }
  pins : ∀ base pin, (∀ l, p.activeLine = some l → ¬ (base = s.ks.lineGrp.base ∧ pin = s.linePin l)) →
    u.pinOut base pin = s.pinOut base pin

/-- The first `k` micro-steps of the scan that starts in `s` lead there. -/
def ScansTo (s : State) (k : Nat) (p : Phase) (n : Nat) (evs : List Obs) : Prop :=
  ∃ u, iterExec .ksPoll k s = .next u ∧ ScanAt s p n evs u

theorem ScansTo.step {s : State} {k : Nat} {p p' : Phase} {n n' : Nat} {evs evs' : List Obs} (h : ScansTo s k p n evs)
    (hstep : ∀ u, ScanAt s p n evs u → ∃ v, exec .ksPoll u = .next v ∧ ScanAt s p' n' evs' v) :
    ScansTo s (k + 1) p' n' evs' := by
  obtain ⟨u, hrun, hu⟩ := h
  obtain ⟨v, hv, hscan⟩ := hstep u hu
  exact ⟨v, (iterExec_succ_of_next hrun).trans hv, hscan⟩

section
variable {s : State} (h : Scannable s)
include h

theorem Scannable.scansTo_entry : ScansTo s 1 (linePhase s.ks.geom 0) 0 [] := by
  refine ⟨_, (iterExec_succ_of_next (iterExec_zero ..)).trans
    ((pollEntry_branches s h.inTick_eq h.idle).2 h.configured), ?_, fun _ _ _ => rfl⟩
  · rw [linePhase_of_lt s.ks.geom.lines_pos, List.append_nil]
    rfl

theorem Scannable.drive {l n : Nat} {evs : List Obs} {u : State} (hl : l < s.ks.lines) (hu : ScanAt s (.drive l) n evs u) :
    ∃ v, exec .ksPoll u = .next v ∧ ScanAt s (.settle l) n (evs ++ [lineWrite s l s.params.kpActive]) v := by
  obtain ⟨hframe, hpins⟩ := hu
  have hctx : u.inTick = false := by rw [hframe]; exact h.inTick_eq
  have hphase : u.ks.phase = .drive l := by rw [hframe]
  have hfree : u.mdBound u.ks.lineGrp.base (u.linePin l) = false := by rw [hframe]; exact h.line_free l hl
  obtain ⟨v, hexec, hv, hout⟩ := pollDrivesLine.2 u l hctx hphase hfree
  refine ⟨v, hexec, ?_, fun base pin hother => ?_⟩
  · rw [hv, hframe]
    simp [lineWrite, State.linePin]
  · have hpin : ¬ (base = u.ks.lineGrp.base ∧ pin = u.linePin l) := by rw [hframe]; exact hother l rfl
    rw [hout, if_neg hpin, hpins base pin (by simp [Phase.activeLine])]

theorem Scannable.settle {l n : Nat} {evs : List Obs} {u : State} (hu : ScanAt s (.settle l) n evs u) :
    ∃ v, exec .ksPoll u = .next v ∧ ScanAt s (columnPhase s.ks.geom l 0) n evs v := by
  obtain ⟨hframe, hpins⟩ := hu
  have hctx : u.inTick = false := by rw [hframe]; exact h.inTick_eq
  have hphase : u.ks.phase = .settle l := by rw [hframe]
  rw [columnPhase_of_lt s.ks.geom.cols_pos]
  refine ⟨_, pollSettles u l hctx hphase, ?_, hpins⟩
  rw [hframe]

theorem Scannable.sample {l c : Nat} {evs : List Obs} {u : State} (hc : c < s.ks.cols)
    (hu : ScanAt s (columnPhase s.ks.geom l c) (l * s.ks.cols + c) evs u) :
    ∃ v, exec .ksPoll u = .next v ∧
      ScanAt s (columnPhase s.ks.geom l (c + 1)) (l * s.ks.cols + (c + 1))
        (evs ++ [.read s.ks.colGrp.base (s.colPin c) (s.readLevel l c)]) v := by
  rw [columnPhase_of_lt hc] at hu
  obtain ⟨hframe, hpins⟩ := hu
  have hctx : u.inTick = false := by rw [hframe]; exact h.inTick_eq
  have hphase : u.ks.phase = .sample l c := by rw [hframe]
  have hfree : u.mdBound u.ks.colGrp.base (u.colPin c) = false := by rw [hframe]; exact h.col_free c hc
  have hlevel : u.drawAt 0 u.ks.colGrp.base (u.colPin c) = s.readLevel l c := by
    rw [drawAt_drop s (l * s.ks.cols + c) (by rw [hframe]) (by rw [hframe]), hframe]
    rfl
  refine ⟨_, pollSamplesColumn u l c _ hctx hphase hfree hlevel, ?_, fun base pin hother => ?_⟩
  · rw [← Nat.add_assoc, hitAmong_succ s hc, hframe]
    simp [State.colPin, columnPhase, List.drop_drop, Nat.add_assoc]
    exact ⟨rfl, rfl⟩
  · refine hpins base pin fun l' hl' => hother l' ?_
    rw [activeLine_columnPhase]
    exact hl'

theorem Scannable.release {l n : Nat} {evs : List Obs} {u : State} (hl : l < s.ks.lines)
    (hu : ScanAt s (.release l) n evs u) :
    ∃ v, exec .ksPoll u = .next v ∧
      ScanAt s (linePhase s.ks.geom (l + 1)) n (evs ++ [lineWrite s l (inactiveKp s.params)]) v := by
  obtain ⟨hframe, hpins⟩ := hu
  have hctx : u.inTick = false := by rw [hframe]; exact h.inTick_eq
  have hphase : u.ks.phase = .release l := by rw [hframe]
  have hfree : u.mdBound u.ks.lineGrp.base (u.linePin l) = false := by rw [hframe]; exact h.line_free l hl
  obtain ⟨v, hexec, hv, hout⟩ := pollReleasesLine.2 u l hctx hphase hfree
  refine ⟨v, hexec, ?_, fun base pin _ => ?_⟩
  · rw [hv, hframe]
    simp [lineWrite, State.linePin, linePhase]
    rfl
  · have hbase : u.ks.lineGrp.base = s.ks.lineGrp.base := by rw [hframe]
    have hline : u.linePin l = s.linePin l := by rw [hframe]; rfl
    have hparams : u.params = s.params := by rw [hframe]
    rw [hout, hbase, hline, hparams]
    split
    · next hpin => rw [hpin.1, hpin.2, h.line_inactive l hl]
    · next hpin =>
      refine hpins base pin fun l' hl' => ?_
      obtain rfl : l = l' := Option.some.inj hl'
      exact hpin

/-- The columns of a line, by induction. -/
theorem Scannable.scansTo_columns {k l : Nat} {evs : List Obs}
    (hstart : ScansTo s k (columnPhase s.ks.geom l 0) (l * s.ks.cols) evs) {c : Nat} (hc : c ≤ s.ks.cols) :
    ScansTo s (k + c) (columnPhase s.ks.geom l c) (l * s.ks.cols + c) (evs ++ columnReads s l c) := by
  induction c with
  | zero => rwa [columnReads, List.range_zero, List.map_nil, List.append_nil]
  | succ c ih =>
    rw [columnReads_succ, ← List.append_assoc]
    exact (ih (by omega)).step fun _ => h.sample hc

/-- The lines, by induction. -/
theorem Scannable.scansTo_lines {l : Nat} (hl : l ≤ s.ks.lines) :
    ScansTo s (1 + l * (s.ks.cols + 3)) (linePhase s.ks.geom l) (l * s.ks.cols) (lineEvents s l) := by
  induction l with
  | zero =>
    rw [Nat.zero_mul, Nat.zero_mul]
    exact h.scansTo_entry
  | succ l ih =>
    have hstart := ih (by omega)
    rw [linePhase_of_lt hl] at hstart
    have hsampled := h.scansTo_columns ((hstart.step fun _ => h.drive hl).step fun _ => h.settle) (Nat.le_refl _)
    rw [show columnPhase s.ks.geom l s.ks.cols = .release l from columnPhase_cols] at hsampled
    have hreleased := hsampled.step fun _ => h.release hl
    rw [lineEvents_succ, Nat.succ_mul, Nat.succ_mul,
      show 1 + (l * (s.ks.cols + 3) + (s.ks.cols + 3)) = 1 + l * (s.ks.cols + 3) + 1 + 1 + s.ks.cols + 1 by omega]
    exact hreleased

end

/-- What the poll that starts in `s` makes of its candidate. -/
def pollResult (s : State) : Debounce :=
  debounce s.params.reportMode s.ks.k s.ks.cand s.ks.cnt (pollCandidate s)

/-- The state a whole poll from `s` ends in, with these output latches. -/
def State.polled (s : State) (outs : Cells Level) : State :=
  { s with
    ks := { s.ks with hit := firstActive s, cand := pollCandidate s, cnt := (pollResult s).cnt }
    outs := outs
    latch := none
    trace := s.trace ++ pollEvents s ++ [.response .ok (pollResult s).out]
    draws := s.draws.drop (s.ks.lines * s.ks.cols)
    drawn := s.drawn + s.ks.lines * s.ks.cols }

/-- A whole configured poll (R115): its micro-steps and the state it ends in. -/
theorem Scannable.poll {s : State} (h : Scannable s) :
    ∃ outs, iterExec .ksPoll (pollSteps s.ks.geom) s = .next (s.polled outs) ∧
      ∀ base pin, (s.polled outs).pinOut base pin = s.pinOut base pin := by
  obtain ⟨u, hrun, hframe, hpins⟩ := h.scansTo_lines (Nat.le_refl _)
  rw [hitAmong_lines, lineEvents_lines] at hframe
  have hphase : u.ks.phase = .decide := by rw [hframe]; exact linePhase_lines
  have hctx : u.inTick = false := by rw [hframe]; exact h.inTick_eq
  have hcand : u.candidate = some (pollCandidate s) := by
    rw [hframe]
    cases hhit : firstActive s with
    | none => simp [State.candidate, pollCandidate, hhit]
    | some i =>
      have hi : i < 16 := Nat.lt_of_lt_of_le (firstActive_lt hhit) s.ks.geom.keys_le
      simp [State.candidate, pollCandidate, hhit, State.keyMapRead, Config.keyMapSize, hi]
  refine ⟨u.outs, (iterExec_succ_of_next hrun).trans ?_, fun base pin => hpins base pin fun l hl => ?_⟩
  · rw [exec_ksPoll_decide hctx hphase, pollDecide_of_candidate hcand, hframe]
    simp [State.polled, pollResult, ← h.idle]
  · rw [show linePhase s.ks.geom s.ks.lines = .decide from linePhase_lines] at hl
    cases hl

/-- Before its last micro-step a KS_POLL answers nothing and stays in the latch. -/
theorem iterExec_ksPoll_before_response {s : State} (h : s.Inv) (hlatch : s.latch = some (encodeFrame .ksPoll)) {m : Nat}
    (hm : m < s.microStepsLeft) :
    ∃ u, iterExec .ksPoll m s = .next u ∧ u.Inv ∧ u.latch = s.latch ∧ u.microStepsLeft + m = s.microStepsLeft ∧
      u.answers = s.answers := by
  induction m with
  | zero => exact ⟨s, rfl, h, rfl, rfl, rfl⟩
  | succ m ih =>
    obtain ⟨u, hrun, hinv, hsame, hleft, hanswers⟩ := ih (by omega)
    obtain ⟨v, hexec, hinv', hstep⟩ := stepsOn_ksPoll hinv (hsame.trans hlatch)
    refine ⟨v, (iterExec_succ_of_next hrun).trans hexec, hinv', ?_⟩
    cases hstep with
    | last hone => omega
    | more hmore _ hsame' hanswers' => exact ⟨hsame'.trans hsame, by omega, hanswers'.trans hanswers⟩

theorem samePins_polled {s : State} {outs : Cells Level}
    (hout : ∀ base pin, (s.polled outs).pinOut base pin = s.pinOut base pin) : SamePins s (s.polled outs) :=
  fun base pin => ⟨rfl, hout base pin⟩

/-- Settles O29: the micro-steps before the last answer nothing, and the whole poll is the scan of every line and DECIDE. -/
theorem pollRunsFullScan : Obligations.PollRunsFullScan := by
  intro s h hconf hidle hlatch
  have hleft : s.microStepsLeft = pollSteps s.ks.geom := by
    rw [microStepsLeft_ksPoll hlatch, if_pos hconf, hidle]
    rfl
  refine ⟨fun m hm => ?_, length_lineEvents s s.ks.lines, ?_⟩
  · obtain ⟨u, hrun, -, hsame, -, hanswers⟩ := iterExec_ksPoll_before_response h hlatch (hleft ▸ hm)
    exact ⟨u, hrun, hsame, hanswers⟩
  · obtain ⟨outs, hrun, hout⟩ := (h.scannable hconf hidle).poll
    exact ⟨s.polled outs, hrun, rfl, rfl, samePins_polled hout, rfl, rfl, rfl, rfl, rfl, rfl, rfl, rfl, rfl, rfl, rfl⟩

/-! ### An idle matrix (R127) -/

theorem responses_pollEvents (s : State) : responses (pollEvents s) = [] := by
  rw [responses, List.filterMap_eq_nil_iff]
  intro e he
  simp only [pollEvents, List.mem_flatMap, List.mem_cons, List.mem_append, List.mem_map, List.not_mem_nil, or_false] at he
  obtain ⟨l, -, rfl | ⟨c, -, rfl⟩ | rfl⟩ := he <;> rfl

theorem answers_polled (s : State) (outs : Cells Level) :
    (s.polled outs).answers = s.answers ++ [(.ok, (pollResult s).out)] :=
  answers_of_trace rfl (responses_pollEvents s)

theorem Level.inv_ne (lv : Level) : lv.inv ≠ lv := by
  cases lv <;> decide

theorem firstActive_of_idle {s : State}
    (hread : ∀ l < s.ks.lines, ∀ c < s.ks.cols, s.readLevel l c = inactiveKp s.params) : firstActive s = none := by
  rw [firstActive, List.find?_eq_none]
  intro i hi
  have hi : i < s.ks.lines * s.ks.cols := List.mem_range.mp hi
  have hcols : 0 < s.ks.cols := s.ks.geom.cols_pos
  rw [hread _ ((Nat.div_lt_iff_lt_mul hcols).mpr hi) _ (Nat.mod_lt _ hcols), decide_eq_true_eq]
  exact Level.inv_ne s.params.kpActive

theorem debounce_out_noKey (mode : ReportMode) (k : Nat) (cand : Byte) (cnt : Nat) :
    (debounce mode k cand cnt noKey).out = noKey := by
  simp [debounce]

/-- Settles O30: with no active pair the candidate is 0xFF, and DECIDE reports no key for it. -/
theorem idleMatrixAnswersNoKey : Obligations.IdleMatrixAnswersNoKey := by
  intro s h hconf hidle hread
  have hnone := firstActive_of_idle hread
  have hcand : pollCandidate s = noKey := by rw [pollCandidate, hnone]
  obtain ⟨outs, hrun, -⟩ := (h.scannable hconf hidle).poll
  refine ⟨s.polled outs, hrun, hnone, hcand, (answers_polled s outs).trans ?_⟩
  rw [pollResult, hcand, debounce_out_noKey]
  rfl

end Sys2Proof.Machine
end

section
/-! SUPPORT. The debounce law (R128): what a sequence of polls leaves in the registers is the length of the streak of equal
candidates, up to the threshold. -/

namespace Sys2Proof.Machine

/-! ### A sequence of polls -/

theorem Scannable.polled {s : State} (h : Scannable s) {outs : Cells Level}
    (hout : ∀ base pin, (s.polled outs).pinOut base pin = s.pinOut base pin) : Scannable (s.polled outs) where
  inTick_eq := h.inTick_eq
  configured := h.configured
  idle := h.idle
  line_free := h.line_free
  col_free := h.col_free
  line_inactive i hi := (hout ..).trans (h.line_inactive i hi)

/-- `ks.cand` and `ks.cnt` before poll n, when the polls decode `c 0`, `c 1`, …. -/
def regsBefore (mode : ReportMode) (k : Nat) (c : Nat → Byte) (cand : Byte) (cnt : Nat) : Nat → Byte × Nat
  | 0 => (cand, cnt)
  | n + 1 =>
    (c n, (debounce mode k (regsBefore mode k c cand cnt n).1 (regsBefore mode k c cand cnt n).2 (c n)).cnt)

/-- What poll n answers. -/
def answerAt (mode : ReportMode) (k : Nat) (c : Nat → Byte) (cand : Byte) (cnt : Nat) (n : Nat) : Byte :=
  (debounce mode k (regsBefore mode k c cand cnt n).1 (regsBefore mode k c cand cnt n).2 (c n)).out

section
variable (mode : ReportMode) (k : Nat) (c : Nat → Byte) (cand : Byte) (cnt : Nat)

theorem regsBefore_shift (n : Nat) :
    regsBefore mode k c cand cnt (n + 1) =
      regsBefore mode k (fun i => c (i + 1)) (c 0) (debounce mode k cand cnt (c 0)).cnt n := by
  induction n with
  | zero => rfl
  | succ n ih => rw [regsBefore, ih, regsBefore]

theorem answerAt_shift (n : Nat) :
    answerAt mode k c cand cnt (n + 1) =
      answerAt mode k (fun i => c (i + 1)) (c 0) (debounce mode k cand cnt (c 0)).cnt n := by
  rw [answerAt, regsBefore_shift, answerAt]

end

/-- A sequence of polls decodes some candidates, and answers what the debounce makes of them. -/
theorem Scannable.pollRun {s : State} (h : Scannable s) (m : Nat) :
    ∃ c : Nat → Byte, pollRun m s =
      some ((List.range m).map fun n => (c n, answerAt s.params.reportMode s.ks.k c s.ks.cand s.ks.cnt n)) := by
  induction m generalizing s with
  | zero => exact ⟨fun _ => noKey, rfl⟩
  | succ m ih =>
    obtain ⟨outs, hrun, hout⟩ := h.poll
    obtain ⟨c, hc⟩ := ih (h.polled hout)
    have hanswer : (responses (s.polled outs).trace).getLast? = some (.ok, (pollResult s).out) := by
      rw [← State.answers, answers_polled, List.getLast?_concat]
    refine ⟨fun n => n.casesOn (pollCandidate s) c, ?_⟩
    rw [List.range_succ_eq_map, List.map_cons, List.map_map]
    simp only [Machine.pollRun, hrun, hanswer, hc, Function.comp_def, answerAt_shift]
    rfl

/-! ### Streaks -/

/-- The last `j` of the candidates up to poll n are the same. -/
def Streak (c : Nat → Byte) (n j : Nat) : Prop := j ≤ n + 1 ∧ ∀ i < j, c (n - i) = c n

section
variable {mode : ReportMode} {k : Nat} {c : Nat → Byte} {n : Nat}

theorem streak_zero : Streak c n 0 := ⟨Nat.zero_le _, fun _ hi => absurd hi (Nat.not_lt_zero _)⟩

theorem streak_one : Streak c n 1 := ⟨by omega, fun i hi => by rw [Nat.lt_one_iff.mp hi, Nat.sub_zero]⟩

/-- A streak of two or more is a streak up to the poll before, of the same candidate. -/
theorem streak_succ {j : Nat} : Streak c (n + 1) (j + 2) ↔ c (n + 1) = c n ∧ Streak c n (j + 1) := by
  constructor
  · intro ⟨hlen, hsame⟩
    have hlast : c n = c (n + 1) := by simpa using hsame 1 (by omega)
    refine ⟨hlast.symm, by omega, fun i hi => ?_⟩
    rw [hlast, ← hsame (i + 1) (by omega), Nat.add_sub_add_right]
  · intro ⟨hlast, hlen, hsame⟩
    refine ⟨by omega, fun i hi => ?_⟩
    cases i with
    | zero => rfl
    | succ i => rw [Nat.add_sub_add_right, hsame i (by omega), hlast]

/-- A streak of `k` that no longer one extends begins the run, or follows something else. -/
theorem not_streak_succ_iff (h : Streak c n k) : ¬ Streak c n (k + 1) ↔ n + 1 = k ∨ c (n - k) ≠ c n := by
  obtain ⟨hlen, hsame⟩ := h
  have hlonger : Streak c n (k + 1) ↔ k + 1 ≤ n + 1 ∧ c (n - k) = c n :=
    ⟨fun h => ⟨h.1, h.2 k (Nat.lt_succ_self k)⟩, fun h => ⟨h.1, fun i hi =>
      (Nat.lt_succ_iff_lt_or_eq.mp hi).elim (hsame i) fun hik => hik ▸ h.2⟩⟩
  rw [hlonger, Classical.not_and_iff_not_or_not]
  exact or_congr_left (by omega)

/-- The candidates of the last `k` polls are `key`: a streak of `k` that ends with `key`. -/
theorem run_iff_streak (hk : 1 ≤ k) {key : Byte} :
    (k ≤ n + 1 ∧ ∀ j < k, c (n - j) = key) ↔ c n = key ∧ Streak c n k := by
  constructor
  · intro ⟨hlen, hrun⟩
    have hlast : c n = key := hrun 0 hk
    exact ⟨hlast, hlen, fun i hi => (hrun i hi).trans hlast.symm⟩
  · intro ⟨hlast, hlen, hsame⟩
    exact ⟨hlen, fun i hi => (hsame i hi).trans hlast⟩

/-! ### The counter measures the streak -/

section
variable (hk : 1 ≤ k)

theorem cnt_le_threshold (mode : ReportMode) (c : Nat → Byte) (hk : 1 ≤ k) (m : Nat) :
    (regsBefore mode k c noKey 0 m).2 ≤ k := by
  induction m with
  | zero => exact Nat.zero_le k
  | succ m ih => exact debounce_cnt_le hk ih mode ..

theorem cnt_of_other (hother : c (n + 1) ≠ c n) : (regsBefore mode k c noKey 0 (n + 2)).2 = 1 := by
  rw [regsBefore, debounce_cnt, if_neg (show c (n + 1) ≠ (regsBefore mode k c noKey 0 (n + 1)).1 from hother)]

include hk

theorem cnt_first : (regsBefore mode k c noKey 0 1).2 = 1 := by
  have hpos : 0 < k := hk
  simp [regsBefore, debounce_cnt, hpos]

theorem cnt_of_same (hsame : c (n + 1) = c n) :
    (regsBefore mode k c noKey 0 (n + 2)).2 = min k ((regsBefore mode k c noKey 0 (n + 1)).2 + 1) := by
  have hle := cnt_le_threshold mode c hk (n + 1)
  rw [regsBefore, debounce_cnt, if_pos (show c (n + 1) = (regsBefore mode k c noKey 0 (n + 1)).1 from hsame)]
  split <;> omega

/-- After poll n the counter is the length of the streak, up to the threshold. -/
theorem le_cnt_iff_streak {j : Nat} (hj : j ≤ k) : j ≤ (regsBefore mode k c noKey 0 (n + 1)).2 ↔ Streak c n j := by
  induction n generalizing j with
  | zero =>
    rw [cnt_first hk]
    match j with
    | 0 => exact iff_of_true (by omega) streak_zero
    | 1 => exact iff_of_true (by omega) streak_one
    | j + 2 => exact iff_of_false (by omega) fun ⟨hlen, _⟩ => by omega
  | succ n ih =>
    match j with
    | 0 => exact iff_of_true (Nat.zero_le _) streak_zero
    | 1 =>
      have hbefore : 1 ≤ (regsBefore mode k c noKey 0 (n + 1)).2 := (ih hk).mpr streak_one
      refine iff_of_true ?_ streak_one
      by_cases hsame : c (n + 1) = c n
      · rw [cnt_of_same hk hsame]
        omega
      · rw [cnt_of_other hsame]
    | j + 2 =>
      rw [streak_succ, ← ih (by omega)]
      by_cases hsame : c (n + 1) = c n
      · rw [cnt_of_same hk hsame, and_iff_right hsame]
        omega
      · rw [cnt_of_other hsame]
        exact iff_of_false (by omega) fun h => hsame h.1

/-- After poll n the counter has reached the threshold exactly if the streak has. -/
theorem cnt_eq_threshold_iff : (regsBefore mode k c noKey 0 (n + 1)).2 = k ↔ Streak c n k := by
  rw [← le_cnt_iff_streak (mode := mode) hk (Nat.le_refl k)]
  have := cnt_le_threshold mode c hk (n + 1)
  omega

/-- The counter reaches the threshold afresh exactly if the streak is of `k` and no longer. -/
theorem fresh_iff_streak (hkey : c n ≠ noKey) (hstreak : Streak c n k) :
    (c n = (regsBefore mode k c noKey 0 n).1 → (regsBefore mode k c noKey 0 n).2 < k) ↔ ¬ Streak c n (k + 1) := by
  cases n with
  | zero => exact iff_of_true (fun h => absurd h hkey) fun ⟨hlen, _⟩ => by omega
  | succ n =>
    obtain ⟨j, rfl⟩ : ∃ j, k = j + 1 := ⟨k - 1, by omega⟩
    rw [streak_succ, ← le_cnt_iff_streak (mode := mode) hk (Nat.le_refl _), not_and, Nat.not_le]
    rfl

end

/-! ### The law -/

/-- Where every answer is the candidate or no key, a key is answered exactly if it is the candidate and the report condition
holds. -/
theorem report_eq_iff {new key : Byte} (hkey : key ≠ noKey) {P : Prop} [Decidable P] :
    (if new ≠ noKey ∧ P then new else noKey) = key ↔ new = key ∧ P := by
  by_cases hnew : new = key
  · subst hnew
    by_cases hp : P <;> simp [hkey, hkey.symm, hp]
  · split <;> simp [hnew, hkey.symm]

theorem answerAt_held (hk : 1 ≤ k) {key : Byte} (hkey : key ≠ noKey) :
    answerAt .held k c noKey 0 n = key ↔ k ≤ n + 1 ∧ ∀ j < k, c (n - j) = key := by
  rw [run_iff_streak hk, ← cnt_eq_threshold_iff (mode := .held) hk, answerAt, debounce_out_held]
  exact report_eq_iff hkey

theorem answerAt_edge (hk : 1 ≤ k) {key : Byte} (hkey : key ≠ noKey) :
    answerAt .edge k c noKey 0 n = key ↔
      (k ≤ n + 1 ∧ ∀ j < k, c (n - j) = key) ∧ (n + 1 = k ∨ c (n - k) ≠ key) := by
  rw [run_iff_streak hk, answerAt, debounce_out_edge]
  refine (report_eq_iff hkey).trans ?_
  rw [and_assoc]
  refine and_congr_right fun hlast => ?_
  subst hlast
  rw [and_comm]
  refine (and_congr_left' (cnt_eq_threshold_iff (mode := .edge) hk)).trans (and_congr_right fun hstreak => ?_)
  rw [fresh_iff_streak hk hkey hstreak, not_streak_succ_iff hstreak]

end

/-- Settles O31: the candidates the polls decode are one sequence, its streaks are what the counter counts, and a key is answered
when its streak reaches the threshold (EDGE) or has reached it (HELD). -/
theorem debounceLaw : Obligations.DebounceLaw := by
  intro s m h hconf hidle hcand hcnt
  have hk := h.one_le_k hconf
  obtain ⟨c, hrun⟩ := (h.scannable hconf hidle).pollRun m
  rw [hcand, hcnt] at hrun
  refine ⟨_, hrun, by simp, fun n hn key hkey => ?_⟩
  have hdecoded (j : Nat) : ((((List.range m).map fun n =>
      (c n, answerAt s.params.reportMode s.ks.k c 0xFF 0 n))[n - j]?).map Prod.fst) = some (c (n - j)) := by
    rw [List.getElem?_map, List.getElem?_range (by omega)]
    rfl
  have hanswered : ((((List.range m).map fun n =>
      (c n, answerAt s.params.reportMode s.ks.k c 0xFF 0 n))[n]?).map Prod.snd) =
        some (answerAt s.params.reportMode s.ks.k c 0xFF 0 n) := by
    rw [List.getElem?_map, List.getElem?_range hn]
    rfl
  simp only [hdecoded, hanswered, Option.some.injEq, ne_eq]
  refine ⟨fun hmode => ?_, fun hmode => ?_⟩
  · rw [hmode]
    exact answerAt_edge hk hkey
  · rw [hmode]
    exact answerAt_held hk hkey

end Sys2Proof.Machine
end

section
/-! SUPPORT. The refreshes of a bound display (R164–R169): they go round, and each breaks before it makes. -/

namespace Sys2Proof.Machine

/-! ### The round-robin (R165, R169) -/

/-- MD's registers after `k` refreshes: only the round-robin has moved. -/
def Md.afterRefreshes (md : Md) (k : Nat) : Md :=
  { md with
    idx := (md.idx + k) % md.n
    activeDigit := if k = 0 then md.activeDigit else some ((md.idx + (k - 1)) % md.n) }

/-- The events of refresh number `j` from `s`. -/
def refreshAt (s : State) (j : Nat) : List Obs :=
  refreshEvents (s.md.afterRefreshes j) (Entry.ofByte ((s.activeEntry ((s.md.idx + j) % s.md.n)).getD 0))
    ((s.md.idx + j) % s.md.n)

theorem afterRefreshes_zero {md : Md} (hidx : md.idx < md.n) : md.afterRefreshes 0 = md := by
  rw [Md.afterRefreshes, if_pos rfl, Nat.add_zero, Nat.mod_eq_of_lt hidx]

theorem afterRefreshes_succ (md : Md) (k : Nat) :
    { md.afterRefreshes k with
      activeDigit := some (md.afterRefreshes k).idx
      idx := ((md.afterRefreshes k).idx + 1) % md.n } = md.afterRefreshes (k + 1) := by
  simp [Md.afterRefreshes, Nat.add_assoc]

/-- `k` refreshes in a row, in TICK context. -/
theorem Refreshable.refreshes {s : State} (h : Refreshable s) (hctx : s.inTick = true) (k : Nat) :
    ∃ t, iterExec .mdAdvance k s = .next t ∧ t.md = s.md.afterRefreshes k ∧
      t.trace = s.trace ++ (List.range k).flatMap (refreshAt s) ∧ t.inTick = true ∧ Refreshable t := by
  induction k with
  | zero => exact ⟨s, rfl, (afterRefreshes_zero h.idx_lt).symm, (List.append_nil _).symm, hctx, h⟩
  | succ k ih =>
    obtain ⟨t, hrun, hmd, htrace, hctx', ht⟩ := ih
    obtain ⟨u, hexec, hframe, -, hu⟩ := ht.exec_mdAdvance hctx'
    have hentry : t.activeEntry t.md.idx = s.activeEntry ((s.md.idx + k) % s.md.n) := by
      simp only [State.activeEntry, State.bufRead, hmd]
      rfl
    refine ⟨u, (iterExec_succ_of_next hrun).trans hexec, ?_, ?_, ?_, hu⟩
    · rw [hframe, ← afterRefreshes_succ, hmd]
      rfl
    · rw [hframe, hentry, hmd, htrace, List.range_succ, List.flatMap_append, List.flatMap_singleton, List.append_assoc]
      rfl
    · rw [hframe]
      exact hctx'

theorem mod_round {n i j : Nat} (hi : i < n) (hj : j < n) :
    (i + j) % n = if i + j < n then i + j else i + j - n := by
  rw [Nat.add_mod_eq_ite, Nat.mod_eq_of_lt hi, Nat.mod_eq_of_lt hj]
  split <;> split <;> omega

/-- From any position, each position is the next after exactly one number of moves below `n`. -/
theorem exists_unique_move {n i d : Nat} (hi : i < n) (hd : d < n) :
    ∃ j < n, (i + j) % n = d ∧ ∀ j' < n, (i + j') % n = d → j' = j := by
  refine ⟨if i ≤ d then d - i else d + n - i, by split <;> omega, ?_, fun j' hj' h => ?_⟩
  · rw [mod_round hi (by split <;> omega)]
    split <;> split <;> omega
  · rw [mod_round hi hj'] at h
    split at h <;> split <;> omega

/-- Settles O45, by induction on the refreshes and by the arithmetic of positions modulo md.N. -/
theorem refreshesGoRound : Obligations.RefreshesGoRound := by
  intro s k h hports
  have hs := h.refreshable hports
  obtain ⟨t, hrun, hmd, htrace, -⟩ := (hs.congr (t := enterTick s) rfl rfl).refreshes rfl k
  exact ⟨⟨t, hrun, hmd, htrace⟩, fun d hd => exists_unique_move hs.idx_lt hd⟩

/-! ### Break before make (R167) -/

theorem replayPin_append (evs evs' : List Obs) (base : PortBase) (pin : Nat) (lv : Level) :
    replayPin (evs ++ evs') base pin lv = replayPin evs' base pin (replayPin evs base pin lv) :=
  List.foldl_append

/-- Events that do not write the pin leave its level. -/
theorem replayPin_of_no_write {evs : List Obs} {base : PortBase} {pin : Nat}
    (h : ∀ e ∈ evs, ∀ lv, e ≠ .write base pin lv) (lv : Level) : replayPin evs base pin lv = lv := by
  induction evs with
  | nil => rfl
  | cons e evs ih =>
    have hrest := ih fun e' he' => h e' (List.mem_cons_of_mem _ he')
    have he := h e List.mem_cons_self
    refine Eq.trans ?_ hrest
    rw [show e :: evs = [e] ++ evs from rfl, replayPin_append]
    congr 1
    cases e with
    | write b p v =>
      refine (replayPin_write ..).trans (if_neg ?_)
      rintro ⟨rfl, rfl⟩
      exact he v rfl
    | _ => rfl

theorem length_deselectEvents_le (md : Md) : (deselectEvents md).length ≤ 1 := by
  unfold deselectEvents
  split <;> simp

/-- Where the select pins are at md.act exactly at the lit digit, the number of those at md.act is 1 or 0. -/
theorem selectsActive_eq {s : State} {evs : List Obs} {lit : Option Nat} (hlit : ∀ a, lit = some a → a < s.md.n)
    (h : ∀ d < s.md.n, replayPin evs s.md.ctrlGrp.base (s.selectPin d) (s.pinOut s.md.ctrlGrp.base (s.selectPin d)) =
      if lit = some d then s.md.act else s.md.act.inv) : selectsActive s evs = if lit.isSome then 1 else 0 := by
  have hfilter : selectsActive s evs = ((List.range s.md.n).filter fun d => lit = some d).length := by
    unfold selectsActive
    congr 1
    refine List.filter_congr fun d hd => ?_
    rw [h d (List.mem_range.mp hd)]
    split <;> simp [*, Level.inv_ne]
  rw [hfilter]
  cases lit with
  | none => simp
  | some a =>
    have hone : (List.range s.md.n).count a = 1 :=
      List.count_eq_one_of_mem List.nodup_range (List.mem_range.mpr (hlit a rfl))
    rw [← List.countP_eq_length_filter, Option.isSome_some, if_pos rfl, ← hone, List.count]
    exact List.countP_congr fun d _ => by
      rw [decide_eq_true_eq, Option.some.injEq, beq_iff_eq]
      exact eq_comm

/-- The eight writes of the data bus in a refresh (R164). -/
def busEvents (md : Md) (e : Entry) : List Obs :=
  (List.range Config.portPins).map fun b =>
    .write md.dataGrp.base (md.dataGrp.first.toNat + b) (Level.ofBit ((segOut e md.pol).getLsbD b))

/-- The write that makes digit d (R164). -/
def makeEvent (md : Md) (d : Nat) : Obs := .write md.ctrlGrp.base (md.ctrlGrp.first.toNat + d) md.act

section
variable {s : State} (h : s.Inv) (hports : s.md.portsSet = true) (e : Entry)
include h hports

/-- At the start the lit digit's select pin alone is at md.act. -/
theorem selectsActive_start_le : selectsActive s [] ≤ 1 := by
  obtain ⟨-, -, hbound⟩ := h.mdInv
  obtain ⟨-, -, -, -, hselect, -⟩ := hbound hports
  rw [selectsActive_eq (evs := []) (fun a ha => (h.mdInv.lit ha).2) fun d hd => (hselect d hd).2]
  split <;> decide

/-- After the break and any part of the data bus a select pin is inactive. -/
theorem replayPin_bus {d : Nat} (hd : d < s.md.n) (k : Nat) :
    replayPin (deselectEvents s.md ++ (busEvents s.md e).take k) s.md.ctrlGrp.base (s.selectPin d)
      (s.pinOut s.md.ctrlGrp.base (s.selectPin d)) = s.md.act.inv := by
  obtain ⟨-, -, hbound⟩ := h.mdInv
  obtain ⟨-, -, -, hsep, hselect, -⟩ := hbound hports
  rw [replayPin_append, replayPin_deselectEvents (hselect d hd).2]
  refine replayPin_of_no_write (fun o ho lv heq => ?_) _
  obtain ⟨b, hb, rfl⟩ := List.mem_map.mp (List.mem_of_mem_take ho)
  injection heq with hbase hpin
  refine Group.not_has_of_overlap hsep (Group.has_pin (List.mem_range.mp hb)) ?_
  rw [hbase, hpin]
  exact Group.has_pin hd

theorem selectsActive_bus (k : Nat) : selectsActive s (deselectEvents s.md ++ (busEvents s.md e).take k) = 0 :=
  selectsActive_eq (lit := none) nofun fun _ hd => replayPin_bus h hports e hd k

/-- After the make the shown digit's select pin alone is at md.act. -/
theorem selectsActive_refresh {i : Nat} (hi : i < s.md.n) : selectsActive s (refreshEvents s.md e i) = 1 := by
  refine selectsActive_eq (lit := some i) (fun a ha => Option.some.inj ha ▸ hi) fun d hd => ?_
  have hbus := replayPin_bus h hports e hd 8
  rw [List.take_of_length_le (by simp [busEvents, Config.portPins])] at hbus
  have hevents : refreshEvents s.md e i = deselectEvents s.md ++ busEvents s.md e ++ [makeEvent s.md i] := rfl
  rw [hevents, replayPin_append, hbus]
  refine (replayPin_write ..).trans ?_
  by_cases hdi : d = i
  · rw [if_pos (congrArg some hdi.symm)]
    exact if_pos ⟨rfl, by rw [State.selectPin, hdi]⟩
  · rw [if_neg (fun heq => hdi (Option.some.inj heq).symm)]
    exact if_neg fun heq => hdi (selectPin_inj.mp heq.2)

end

/-- Between the break and the make, what has been emitted is the break and part of the data bus. -/
theorem take_refreshEvents {md : Md} {e : Entry} {i k : Nat} (hlo : (deselectEvents md).length ≤ k)
    (hhi : k < (refreshEvents md e i).length) :
    (refreshEvents md e i).take k = deselectEvents md ++ (busEvents md e).take (k - (deselectEvents md).length) := by
  have hevents : refreshEvents md e i = deselectEvents md ++ busEvents md e ++ [makeEvent md i] := rfl
  rw [hevents, List.length_append, List.length_singleton] at hhi
  rw [hevents, List.take_append_of_le_length (by omega), List.take_append, List.take_of_length_le hlo]

/-- Settles O46: the break leaves every select pin inactive, the data bus writes none of them, and the make sets one. -/
theorem breakBeforeMake : Obligations.BreakBeforeMake := by
  intro s h hports
  have hs := h.refreshable hports
  obtain ⟨t, hexec, hframe, -⟩ := (hs.congr (t := enterTick s) rfl rfl).exec_mdAdvance rfl
  obtain ⟨e, htrace⟩ : ∃ e, t.trace = s.trace ++ refreshEvents s.md e s.md.idx := ⟨_, congrArg State.trace hframe⟩
  have hbetween (k : Nat) (hlo : (deselectEvents s.md).length ≤ k) (hhi : k < (refreshEvents s.md e s.md.idx).length) :
      selectsActive s ((refreshEvents s.md e s.md.idx).take k) = 0 := by
    rw [take_refreshEvents hlo hhi]
    exact selectsActive_bus h hports e _
  have hend := selectsActive_refresh h hports e hs.idx_lt
  refine ⟨t, _, hexec, htrace, fun k => ?_, hbetween, hend⟩
  by_cases hlo : (deselectEvents s.md).length ≤ k
  · by_cases hhi : k < (refreshEvents s.md e s.md.idx).length
    · rw [hbetween k hlo hhi]
      exact Nat.zero_le 1
    · rw [List.take_of_length_le (Nat.le_of_not_lt hhi), hend]
  · obtain rfl : k = 0 := by
      have := length_deselectEvents_le s.md
      omega
    exact selectsActive_start_le h hports

end Sys2Proof.Machine
end

section
/-! SUPPORT. Noninterference (R124, R208): states that differ at most in what a tick writes are twins, every command takes twins
to twins, and a tick keeps them twins. -/

namespace Sys2Proof.Machine

/-! ### Twins -/

/-- `u` is `s` but for what ticks and strobes write: the round-robin, the pending bit, the output latches, and events in the
trace that are no responses. -/
inductive Twin (s : State) : State → Prop
  | mk (idx : Nat) (digit : Option Nat) (pending : Bool) (outs : Cells Level) (trace : List Obs)
      (hanswers : responses trace = s.answers) :
      Twin s { s with
        md := { s.md with idx := idx, activeDigit := digit }
        tickPending := pending
        outs := outs
        trace := trace }

/-- The outcomes are alike: twins, the same fault or the same refusal. -/
inductive Alike : Out → Out → Prop
  | next {s u : State} (h : Twin s u) : Alike (.next s) (.next u)
  | fault (r : Fault) : Alike (.fault r) (.fault r)
  | refused (r : Refusal) : Alike (.refused r) (.refused r)

theorem Alike.andThen {o o' : Out} {f f' : State → Out} (ho : Alike o o')
    (hf : ∀ {s u}, Twin s u → Alike (f s) (f' u)) : Alike (andThen o f) (andThen o' f') := by
  cases ho with
  | next h => exact hf h
  | fault r => exact .fault r
  | refused r => exact .refused r

theorem Alike.of_next {o : Out} {u : State} (h : Alike o (.next u)) : ∃ s, o = .next s ∧ Twin s u := by
  cases h with
  | next h => exact ⟨_, rfl, h⟩

/-- One more observation after traces with the same responses. -/
theorem responses_append_congr {tr tr' : List Obs} (h : responses tr = responses tr') (e : Obs) :
    responses (tr ++ [e]) = responses (tr' ++ [e]) := by
  rw [responses_append, responses_append, h]

theorem Twin.refl (s : State) : Twin s s := .mk s.md.idx s.md.activeDigit s.tickPending s.outs s.trace rfl

/-- The deselect of a bound display whose lit pin is its own writes output latches and answers nothing. -/
theorem deselectBound_of_litFree {s : State} (hlit : s.LitFree) :
    ∃ outs trace, deselectBound s = .next { s with outs := outs, trace := trace } ∧ responses trace = s.answers := by
  obtain ⟨t, hrun, hpins, -, hdirs⟩ := deselectBound_spec fun _ => hlit
  rw [hpins.eq_of_dirs hdirs] at hrun
  refine ⟨_, _, hrun, ?_⟩
  rw [responses_append, responses_deselectBound, List.append_nil]
  rfl

namespace Twin
variable {s u : State} (h : Twin s u)
include h

/-! ### What twins share -/

theorem params : u.params = s.params := by cases h; rfl
theorem ks : u.ks = s.ks := by cases h; rfl
theorem inTick : u.inTick = s.inTick := by cases h; rfl
theorem latch : u.latch = s.latch := by cases h; rfl
theorem cmds : u.cmds = s.cmds := by cases h; rfl
theorem draws : u.draws = s.draws := by cases h; rfl
theorem drawn : u.drawn = s.drawn := by cases h; rfl
theorem answers : u.answers = s.answers := by cases h with | mk _ _ _ _ _ hanswers => exact hanswers
theorem md : u.md = { s.md with idx := u.md.idx, activeDigit := u.md.activeDigit } := by cases h; rfl
theorem maskedDue : u.md.maskedDue = s.md.maskedDue := by cases h; rfl
theorem uphase : u.md.uphase = s.md.uphase := by cases h; rfl
theorem drawAt (j : Nat) (base : PortBase) (pin : Nat) : u.drawAt j base pin = s.drawAt j base pin := by cases h; rfl
theorem candidate : u.candidate = s.candidate := by cases h; rfl
theorem conflict (w : Owner) (base : PortBase) (pin : Nat) : u.conflict w base pin = s.conflict w base pin := by
  cases h; cases w <;> rfl

/-! ### Register updates and responses -/

theorem respond (res : Result) (data : Byte) : Twin (respond res data s) (respond res data u) := by
  obtain ⟨idx, digit, pending, outs, trace, hanswers⟩ := h
  exact .mk idx digit pending outs _ (responses_append_congr hanswers _)

theorem raise (kind : Result) (data : Byte) : Alike (raise kind data s) (raise kind data u) := .next (h.respond kind data)

theorem setKs (ks : Ks) : Twin { s with ks := ks } { u with ks := ks } := by
  obtain ⟨idx, digit, pending, outs, trace, hanswers⟩ := h
  exact .mk idx digit pending outs trace hanswers

theorem setUPhase (p : UPhase) : Twin (setUPhase p s) (setUPhase p u) := by
  obtain ⟨idx, digit, pending, outs, trace, hanswers⟩ := h
  exact .mk idx digit pending outs trace hanswers

theorem setMasked (m : Bool) : Twin (setMasked m s) (setMasked m u) := by
  obtain ⟨idx, digit, pending, outs, trace, hanswers⟩ := h
  exact .mk idx digit pending outs trace hanswers

theorem setMaskedDue (m : Bool) : Twin (setMaskedDue m s) (setMaskedDue m u) := by
  obtain ⟨idx, digit, pending, outs, trace, hanswers⟩ := h
  exact .mk idx digit pending outs trace hanswers

theorem mdCommitRegs (n : Nat) (q : Polarity) : Twin (mdCommitRegs n q s) (mdCommitRegs n q u) := by
  obtain ⟨idx, digit, pending, outs, trace, hanswers⟩ := h
  exact .mk 0 none pending outs trace hanswers

theorem portsCommitRegs (data ctrl : GroupOp) (lv : Level) :
    Twin (portsCommitRegs data ctrl lv s) (portsCommitRegs data ctrl lv u) := by
  obtain ⟨idx, digit, pending, outs, trace, hanswers⟩ := h
  exact .mk idx none pending outs trace hanswers

theorem updCommit : Alike (updCommit s) (updCommit u) := by
  obtain ⟨idx, digit, pending, outs, trace, hanswers⟩ := h
  refine .next (.respond ?_ ..)
  exact .mk idx digit pending outs trace hanswers

/-! ### Pins and RAMs -/

theorem gpioWrite (w : Owner) (base : PortBase) (pin : Nat) (lv : Level) :
    Alike (gpioWrite w base pin lv s) (gpioWrite w base pin lv u) := by
  unfold Machine.gpioWrite
  rw [h.conflict]
  split
  · exact .fault _
  · obtain ⟨idx, digit, pending, outs, trace, hanswers⟩ := h
    exact .next (.mk idx digit pending _ _ (responses_append_congr hanswers _))

theorem gpioSetDir (w : Owner) (base : PortBase) (mask dirs : Byte) :
    Alike (gpioSetDir w base mask dirs s) (gpioSetDir w base mask dirs u) := by
  unfold Machine.gpioSetDir
  rw [show u.conflict w base = s.conflict w base from funext (h.conflict w base)]
  split
  · exact .fault _
  · obtain ⟨idx, digit, pending, outs, trace, hanswers⟩ := h
    exact .next (.mk idx digit pending _ _ (responses_append_congr hanswers _))

theorem gpioRead (w : Owner) (base : PortBase) (pin : Nat) : Alike (gpioRead w base pin s) (gpioRead w base pin u) := by
  unfold Machine.gpioRead
  rw [h.conflict, h.drawAt]
  split
  · exact .fault _
  · obtain ⟨idx, digit, pending, outs, trace, hanswers⟩ := h
    exact .next (.mk idx digit pending _ _ (responses_append_congr hanswers _))

omit h in
theorem gpioWriteRun (w : Owner) (base : PortBase) (pin : Nat) (lvs : List Level) {s u : State} (h : Twin s u) :
    Alike (gpioWriteRun w base pin lvs s) (gpioWriteRun w base pin lvs u) := by
  induction lvs generalizing pin s u with
  | nil => exact .next h
  | cons lv rest ih => exact (h.gpioWrite w base pin lv).andThen fun h' => ih (pin + 1) h'

theorem keyMapWrite (i : Nat) (v : Byte) : Alike (keyMapWrite i v s) (keyMapWrite i v u) := by
  unfold Machine.keyMapWrite
  rw [h.ks]
  split
  · exact .next (h.setKs _)
  · exact .fault _

omit h in
theorem keyMapLoad (i : Nat) (vs : List Byte) {s u : State} (h : Twin s u) :
    Alike (keyMapLoad i vs s) (keyMapLoad i vs u) := by
  induction vs generalizing i s u with
  | nil => exact .next h
  | cons v rest ih => exact (h.keyMapWrite i v).andThen fun h' => ih (i + 1) h'

theorem bufWrite (b : Bool) (d : Nat) (v : Byte) : Alike (bufWrite b d v s) (bufWrite b d v u) := by
  unfold Machine.bufWrite
  split
  · obtain ⟨idx, digit, pending, outs, trace, hanswers⟩ := h
    exact .next (.mk idx digit pending outs trace hanswers)
  · exact .fault _

theorem writeEntry (vals pts : List Byte) (b : Bool) (i : Nat) :
    Alike (writeEntry vals pts b i s) (writeEntry vals pts b i u) := by
  unfold Machine.writeEntry
  rw [h.params]
  split
  · exact h.bufWrite ..
  · exact .fault _

omit h in
theorem writeEntries (vals pts : List Byte) (b : Bool) (todo i : Nat) {s u : State} (h : Twin s u) :
    Alike (writeEntries vals pts b todo i s) (writeEntries vals pts b todo i u) := by
  induction todo generalizing i s u with
  | zero => exact .next h
  | succ todo ih => exact (h.writeEntry vals pts b i).andThen fun h' => ih (i + 1) h'

theorem deselectBound (hs : s.LitFree) (hu : u.LitFree) : Alike (deselectBound s) (deselectBound u) := by
  obtain ⟨outsS, traceS, hrunS, hanswersS⟩ := deselectBound_of_litFree hs
  obtain ⟨outsU, traceU, hrunU, hanswersU⟩ := deselectBound_of_litFree hu
  rw [hrunS, hrunU]
  obtain ⟨idx, digit, pending, outs, trace, hanswers⟩ := h
  exact .next (.mk idx digit pending outsU traceU (hanswersU.trans (hanswers.trans hanswersS.symm)))

/-! ### The commands -/

theorem inMain {o o' : Out} (ho : Alike o o') : Alike (inMain s o) (inMain u o') := by
  unfold Machine.inMain
  rw [h.inTick]
  split
  · exact .refused _
  · exact ho

theorem ksPinInit : Alike (ksPinInit s) (ksPinInit u) := by
  unfold Machine.ksPinInit
  rw [h.ks, h.params]
  exact (h.gpioWriteRun ..).andThen fun h' => (h'.gpioSetDir ..).andThen fun h' => (h'.gpioSetDir ..).andThen fun h' =>
    h'.gpioWriteRun ..

theorem execKsConfigure (geom k : Byte) (lines cols : GroupOp) (map : List Byte) :
    Alike (execKsConfigure geom k lines cols map s) (execKsConfigure geom k lines cols map u) := by
  refine h.inMain ?_
  rw [h.params]
  split
  · exact h.raise ..
  · next g _ =>
    have hregs : Twin (ksCommitRegs g k lines cols s) (ksCommitRegs g k lines cols u) := by
      unfold ksCommitRegs
      rw [h.ks]
      exact h.setKs _
    refine (hregs.keyMapLoad ..).andThen fun h' => h'.ksPinInit.andThen fun h' => .next (.respond ?_ ..)
    unfold ksSetConfigured
    rw [h'.ks]
    exact h'.setKs _

theorem setPhase (p : Phase) : Twin (setPhase p s) (setPhase p u) := by
  unfold Machine.setPhase
  rw [h.ks]
  exact h.setKs _

theorem pollEntry : Alike (pollEntry s) (pollEntry u) := by
  unfold Machine.pollEntry
  rw [h.ks]
  split
  · exact .next (h.setKs _)
  · exact h.raise ..

theorem pollDrive (l : Nat) : Alike (pollDrive l s) (pollDrive l u) := by
  unfold Machine.pollDrive
  rw [h.ks, h.params]
  exact (h.gpioWrite ..).andThen fun h' => .next (h'.setPhase _)

theorem pollSample (l c : Nat) : Alike (pollSample l c s) (pollSample l c u) := by
  unfold Machine.pollSample
  rw [h.ks, h.drawAt]
  refine (h.gpioRead ..).andThen fun h' => .next ?_
  obtain ⟨idx, digit, pending, outs, trace, hanswers⟩ := h'
  exact .mk idx digit pending outs trace hanswers

theorem pollRelease (l : Nat) : Alike (pollRelease l s) (pollRelease l u) := by
  unfold Machine.pollRelease
  rw [h.ks, h.params]
  refine (h.gpioWrite ..).andThen fun h' => .next ?_
  rw [h'.ks]
  exact h'.setPhase _

theorem pollDecide : Alike (pollDecide s) (pollDecide u) := by
  unfold Machine.pollDecide
  rw [h.candidate]
  split
  · exact .fault _
  · obtain ⟨idx, digit, pending, outs, trace, hanswers⟩ := h
    exact .next (.mk idx digit pending outs _ (responses_append_congr hanswers _))

theorem execKsPoll : Alike (execKsPoll s) (execKsPoll u) := by
  refine h.inMain ?_
  rw [h.ks]
  split
  · exact h.pollEntry
  · exact h.pollDrive _
  · exact .next (h.setPhase _)
  · exact h.pollSample ..
  · exact h.pollRelease _
  · exact h.pollDecide

theorem execMdConfigure (hs : s.LitFree) (hu : u.LitFree) (ndig pol : Byte) :
    Alike (execMdConfigure ndig pol s) (execMdConfigure ndig pol u) := by
  refine h.inMain ?_
  split
  · exact h.raise ..
  · exact (h.deselectBound hs hu).andThen fun h' => .next ((h'.mdCommitRegs ..).respond ..)

theorem portsValidate (data ctrl : GroupOp) (act : Byte) :
    portsValidate u.params u.md data ctrl act = portsValidate s.params s.md data ctrl act := by
  cases h
  rfl

theorem portsInit : Alike (portsInit s) (portsInit u) := by
  unfold Machine.portsInit
  rw [h.md]
  exact (h.gpioWriteRun ..).andThen fun h' => (h'.gpioSetDir ..).andThen fun h' => (h'.gpioWriteRun ..).andThen fun h' =>
    h'.gpioSetDir ..

theorem execMdSetPorts (hs : s.LitFree) (hu : u.LitFree) (data ctrl : GroupOp) (act : Byte) :
    Alike (execMdSetPorts data ctrl act s) (execMdSetPorts data ctrl act u) := by
  refine h.inMain ?_
  rw [h.portsValidate]
  split
  · exact h.raise ..
  · exact (h.deselectBound hs hu).andThen fun h' => (h'.portsCommitRegs ..).portsInit.andThen fun h' => .next (h'.respond ..)

theorem updateValidate (vals pts : List Byte) : updateValidate u.md vals pts = updateValidate s.md vals pts := by
  cases h
  rfl

theorem updEntry (vals pts : List Byte) : Alike (updEntry vals pts s) (updEntry vals pts u) := by
  unfold Machine.updEntry
  rw [h.updateValidate, h.params]
  split
  · exact h.raise ..
  · split
    · exact .next (h.setUPhase _)
    · exact .next (h.setMaskedDue _)

theorem updWrite (vals pts : List Byte) (i : Nat) : Alike (updWrite vals pts i s) (updWrite vals pts i u) := by
  unfold Machine.updWrite
  rw [h.md]
  refine (h.writeEntry ..).andThen fun h' => .next ?_
  rw [h'.md]
  exact h'.setUPhase _

theorem updMasked (vals pts : List Byte) : Alike (updMasked vals pts s) (updMasked vals pts u) := by
  unfold Machine.updMasked
  rw [h.md]
  exact ((h.setMasked true).writeEntries ..).andThen fun h' =>
    .next (((h'.setMasked false).setMaskedDue false).respond ..)

theorem execMdUpdate (vals pts : List Byte) : Alike (execMdUpdate vals pts s) (execMdUpdate vals pts u) := by
  refine h.inMain ?_
  rw [h.maskedDue, h.uphase]
  split
  · exact h.updMasked ..
  · split
    · exact h.updEntry ..
    · exact h.updWrite ..
    · exact h.updCommit

/-- Every instruction takes twins to twins, outside TICK context. -/
theorem exec (hs : s.Inv) (hu : u.Inv) (i : Instr) : Alike (exec i s) (exec i u) := by
  cases i with
  | ksConfigure geom k lines cols map => exact h.execKsConfigure ..
  | ksPoll => exact h.execKsPoll
  | mdConfigure ndig pol => exact h.execMdConfigure hs.litFree hu.litFree ..
  | mdSetPorts data ctrl act => exact h.execMdSetPorts hs.litFree hu.litFree ..
  | mdUpdate vals pts => exact h.execMdUpdate ..
  | mdAdvance =>
    rw [(contextMisuseIsRefused s).1 hs.inTick_eq_false, (contextMisuseIsRefused u).1 hu.inTick_eq_false]
    exact .refused _

/-! ### The turns -/

theorem issue : Twin s.issue u.issue := by
  unfold State.issue
  rw [h.latch, h.cmds]
  split
  · obtain ⟨idx, digit, pending, outs, trace, hanswers⟩ := h
    exact .mk idx digit pending outs trace hanswers
  · exact h

theorem mainStep (hs : s.Inv) (hu : u.Inv) : Alike (mainStep s) (mainStep u) := by
  unfold Machine.mainStep
  rw [h.issue.latch]
  split
  · exact .next h.issue
  · split
    · exact h.issue.exec hs.issue hu.issue _
    · exact h.issue.raise ..

/-- A strobe or a tick in one of the twins leaves them twins. -/
theorem strobe : Twin s (strobe u) := by
  obtain ⟨idx, digit, pending, outs, trace, hanswers⟩ := h
  exact .mk idx digit true outs trace hanswers

theorem tickStep (hu : u.inTick = false) {v : State} (hstep : tickStep u = .next v) : Twin s v := by
  rcases tickStep_cases hstep with ⟨-, rfl⟩ | ⟨hready, w, hexec, rfl⟩
  · exact h
  · have hanswers : (leaveTick w).answers = s.answers :=
      ((execMdAdvance_keeps_answers _).eq w hexec).trans h.answers
    have hframe : leaveTick w = { u with
        md := { u.md with idx := w.md.idx, activeDigit := w.md.activeDigit }
        tickPending := false
        outs := w.outs
        trace := w.trace } := (tickChangesNoMainState u _ hready hstep).trans (by rw [hu]; rfl)
    rw [hframe]
    obtain ⟨idx, digit, pending, outs, trace, -⟩ := h
    exact .mk _ _ false _ _ hanswers

end Twin

/-- Any interleaving of MAIN's turns with strobes and ticks ends in a twin of what MAIN's turns alone give. -/
theorem runTurns_twin {ts : List Turn} {s u t : State} (h : Twin s u) (hs : s.Inv) (hu : u.Inv)
    (hrunning : ∀ x ∈ ts, x.running = true) (hrun : runTurns ts u = .next t) :
    ∃ v, runTurns (mainOnly ts) s = .next v ∧ Twin v t ∧ v.Inv ∧ t.Inv := by
  induction ts generalizing s u with
  | nil =>
    obtain rfl := (next_inj ..).mp hrun
    exact ⟨s, rfl, h, hs, hu⟩
  | cons turn rest ih =>
    obtain ⟨u', hstep, hrest⟩ := andThen_eq_next.mp hrun
    have hrunning' : ∀ x ∈ rest, x.running = true := fun x hx => hrunning x (List.mem_cons_of_mem _ hx)
    have hu' : u'.Inv := runTurn_inv hu hstep
    cases turn with
    | main =>
      have halike := h.mainStep hs hu
      rw [show mainStep u = .next u' from hstep] at halike
      obtain ⟨s', hmain, h'⟩ := halike.of_next
      obtain ⟨v, hv, hend⟩ := ih h' (runTurn_inv (turn := .main) hs hmain) hu' hrunning' hrest
      refine ⟨v, ?_, hend⟩
      rw [mainOnly, List.filter_cons_of_pos (by rfl)]
      exact andThen_eq_next.mpr ⟨s', hmain, hv⟩
    | tick => exact ih (h.tickStep hu.inTick_eq_false hstep) hs hu' hrunning' hrest
    | strobe =>
      obtain rfl := (next_inj ..).mp hstep
      exact ih h.strobe hs hu' hrunning' hrest
    | reset pinsKept => exact absurd (hrunning _ List.mem_cons_self) Bool.false_ne_true

/-- Settles O32: an interleaving's end is a twin of the end of MAIN's turns alone. -/
theorem ticksDoNotDisturbMain : Obligations.TicksDoNotDisturbMain := by
  intro s t ts h hrunning hrun
  obtain ⟨u, hmain, htwin, -⟩ := runTurns_twin (.refl s) h h hrunning hrun
  exact ⟨u, hmain, htwin.ks, htwin.latch, htwin.cmds, htwin.draws, htwin.drawn, htwin.answers, htwin.md⟩

end Sys2Proof.Machine
end

section
/-! SUPPORT. A whole MD_UPDATE (R168): its micro-steps but the last keep the active buffer, and the last makes it the update's;
ticks and strobes between them leave it a twin of the update that MAIN runs alone. -/

namespace Sys2Proof.Machine

section
variable {s t : State} {vals pts : List Byte} (hinv : s.Inv) (hlatch : s.latch = some (encodeFrame (.mdUpdate vals pts)))
  (hwf : (Instr.mdUpdate vals pts).wf = true) (hcheck : updateValidate s.md vals pts = .ok ())

include hlatch hwf hcheck in
theorem microStepsLeft_of_entry (hphase : s.md.uphase = .idle) (hdue : s.md.maskedDue = false) :
    s.microStepsLeft = if s.params.cdcScheme = .swap then s.md.n + 2 else 2 := by
  cases hscheme : s.params.cdcScheme with
  | swap => exact microStepsLeft_of_entry_swap hlatch hwf hdue hphase hcheck hscheme
  | mask => exact microStepsLeft_of_entry_mask hlatch hwf hdue hphase hcheck hscheme

include hinv hlatch hwf hcheck in
/-- A micro-step of MD_UPDATE that is not its last writes no entry of the active buffer. -/
theorem activeEntry_before_last (hleft : 2 ≤ s.microStepsLeft) (hexec : exec (.mdUpdate vals pts) s = .next t) (d : Nat) :
    t.activeEntry d = s.activeEntry d := by
  have hctx := hinv.inTick_eq_false
  cases hdue : s.md.maskedDue with
  | true => rw [microStepsLeft_of_due hlatch hwf hdue] at hleft; omega
  | false =>
    cases hphase : s.md.uphase with
    | idle =>
      obtain ⟨hconf, hvals, hpts⟩ := updateValidate_eq_ok.mp hcheck
      rw [exec_mdUpdate_entry hctx hphase hdue] at hexec
      cases hscheme : s.params.cdcScheme with
      | swap =>
        rw [updEntry_of_swap hconf hvals hpts hscheme, next_inj] at hexec
        subst hexec
        rfl
      | mask =>
        rw [updEntry_of_mask hconf hvals hpts hscheme, next_inj] at hexec
        subst hexec
        rfl
    | write i =>
      obtain ⟨hconf, hvals, hpts⟩ := updateValidate_eq_ok.mp hcheck
      obtain ⟨-, hi⟩ := hinv.write_position hphase hdue
      obtain ⟨-, hn, -⟩ := hinv.mdInv.count hconf
      obtain ⟨u, hu, -, -, -, hactive⟩ := updateWritesShadowEntry s vals pts i _ _ hctx hdue hphase (by omega)
        (List.getElem?_eq_getElem (by omega)) (List.getElem?_eq_getElem (by omega))
      rw [(next_inj ..).mp (hexec.symm.trans hu)]
      exact hactive d
    | commit =>
      rw [microStepsLeft_of_uphase hlatch hwf hdue (by rw [hphase]; exact nofun), hphase, swapStepsLeft] at hleft
      omega

include hinv hlatch hwf hcheck in
/-- The last micro-step of MD_UPDATE shows the update: COMMIT by the swap, UPD_MASKED by the copy. -/
theorem activeEntry_last (hleft : s.microStepsLeft = 1) (hexec : exec (.mdUpdate vals pts) s = .next t) :
    (∀ d < s.md.n, t.activeEntry d = some (updateByte s.params vals pts d)) ∧
      t.answers = s.answers ++ [(.ok, 0x00)] := by
  have hctx := hinv.inTick_eq_false
  obtain ⟨hconf, hvals, hpts⟩ := updateValidate_eq_ok.mp hcheck
  obtain ⟨-, hn, -⟩ := hinv.mdInv.count hconf
  cases hdue : s.md.maskedDue with
  | true =>
    obtain ⟨u, hu, hframe, hactive, -⟩ := updateCopiesUnderMask s vals pts hctx hdue hvals hpts hn
    obtain rfl := (next_inj ..).mp (hexec.symm.trans hu)
    exact ⟨hactive, by rw [hframe]; exact responses_append ..⟩
  | false =>
    cases hphase : s.md.uphase with
    | idle =>
      rw [microStepsLeft_of_entry hlatch hwf hcheck hphase hdue] at hleft
      split at hleft <;> omega
    | write i =>
      obtain ⟨-, hi⟩ := hinv.write_position hphase hdue
      rw [microStepsLeft_of_uphase hlatch hwf hdue (by rw [hphase]; exact nofun), hphase, swapStepsLeft] at hleft
      omega
    | commit =>
      obtain ⟨u, hu, hframe, hactive, -⟩ := updateCommits s vals pts hctx hdue hphase
      obtain rfl := (next_inj ..).mp (hexec.symm.trans hu)
      have hfacts := hinv.updateFacts hlatch hwf (by simp [State.updating, hphase])
      have hfilled : s.shadowFilled = s.md.n := by rw [State.shadowFilled, hphase]
      exact ⟨fun d hd => (hactive d).trans (hfacts.filled d (hfilled ▸ hd)), by rw [hframe]; exact responses_append ..⟩

end

/-! ### The run of an update -/

theorem mainOnly_eq_replicate (ts : List Turn) : mainOnly ts = List.replicate (mainOnly ts).length .main :=
  List.eq_replicate_of_mem fun _ ht => of_decide_eq_true (List.mem_filter.mp ht).2

theorem runTurns_append (ts ts' : List Turn) (s : State) :
    runTurns (ts ++ ts') s = andThen (runTurns ts s) (runTurns ts') := by
  induction ts generalizing s with
  | nil => rfl
  | cons turn rest ih =>
    calc runTurns (turn :: rest ++ ts') s
        = andThen (runTurn turn s) fun u => andThen (runTurns rest u) (runTurns ts') :=
          congrArg (andThen (runTurn turn s)) (funext ih)
      _ = andThen (runTurns (turn :: rest) s) (runTurns ts') := (andThen_assoc ..).symm

/-- The last of some turns of MAIN. -/
theorem runTurns_replicate_succ {j : Nat} {s t : State} (h : runTurns (List.replicate (j + 1) .main) s = .next t) :
    ∃ u, runTurns (List.replicate j .main) s = .next u ∧ mainStep u = .next t := by
  rw [List.replicate_succ', runTurns_append] at h
  obtain ⟨u, hu, hlast⟩ := andThen_eq_next.mp h
  obtain ⟨t', ht', hend⟩ := andThen_eq_next.mp hlast
  obtain rfl := (next_inj ..).mp hend
  exact ⟨u, hu, ht'⟩

theorem mainStep_mdUpdate {s : State} {vals pts : List Byte} (hlatch : s.latch = some (encodeFrame (.mdUpdate vals pts)))
    (hwf : (Instr.mdUpdate vals pts).wf = true) : mainStep s = exec (.mdUpdate vals pts) s := by
  have hissue := issue_of_latch hlatch
  rw [mainStep_of_decode (hissue.symm ▸ hlatch) (decodeFrame_encodeFrame hwf rfl), hissue]

/-- What the micro-steps of an update but its last keep. -/
structure UpdateKept (s t : State) : Prop where
  params : t.params = s.params
  count : t.md.n = s.md.n
  configured : t.md.configured = s.md.configured
  active : ∀ d, t.activeEntry d = s.activeEntry d

theorem UpdateKept.legal {s t : State} (h : UpdateKept s t) {vals pts : List Byte}
    (hcheck : updateValidate s.md vals pts = .ok ()) : updateValidate t.md vals pts = .ok () := by
  rw [updateValidate_eq_ok, h.configured, h.count]
  exact updateValidate_eq_ok.mp hcheck

section
variable {s : State} {vals pts : List Byte} (hinv : s.Inv) (hlatch : s.latch = some (encodeFrame (.mdUpdate vals pts)))
  (hwf : (Instr.mdUpdate vals pts).wf = true) (hcheck : updateValidate s.md vals pts = .ok ())
include hinv hlatch hwf hcheck

/-- Fewer turns of MAIN than the update has micro-steps keep the active buffer, by induction. -/
theorem run_update {j : Nat} (hj : j < s.microStepsLeft) {t : State}
    (hrun : runTurns (List.replicate j .main) s = .next t) : UpdateKept s t := by
  induction j generalizing t with
  | zero =>
    obtain rfl := (next_inj ..).mp hrun
    exact ⟨rfl, rfl, rfl, fun _ => rfl⟩
  | succ j ih =>
    obtain ⟨u, hu, hstep⟩ := runTurns_replicate_succ hrun
    have hkept := ih (by omega) hu
    obtain ⟨hinv', hlatch', hleft, -⟩ := run_before_response j hinv hlatch (by omega) hu
    rw [mainStep_mdUpdate hlatch' hwf] at hstep
    obtain ⟨⟨hparams, -⟩, -, -, -, -, hmd⟩ := commandsWriteOnlyTheirRegisters _ _ _ hstep
    exact ⟨hparams.trans hkept.params, by rw [hmd]; exact hkept.count, by rw [hmd]; exact hkept.configured, fun d =>
      (activeEntry_before_last hinv' hlatch' hwf (hkept.legal hcheck) (by omega) hstep d).trans (hkept.active d)⟩

/-- As many turns of MAIN as the update has micro-steps show it. -/
theorem run_whole_update {j : Nat} (hj : s.microStepsLeft = j + 1) {t : State}
    (hrun : runTurns (List.replicate (j + 1) .main) s = .next t) :
    (∀ d < s.md.n, t.activeEntry d = some (updateByte s.params vals pts d)) ∧ t.answers = s.answers ++ [(.ok, 0x00)] := by
  obtain ⟨u, hu, hstep⟩ := runTurns_replicate_succ hrun
  have hkept := run_update hinv hlatch hwf hcheck (by omega) hu
  obtain ⟨hinv', hlatch', hleft, hanswers⟩ := run_before_response j hinv hlatch (by omega) hu
  rw [mainStep_mdUpdate hlatch' hwf] at hstep
  have hlast := activeEntry_last hinv' hlatch' hwf (hkept.legal hcheck) (by omega) hstep
  rwa [hkept.count, hkept.params, hanswers] at hlast

end

theorem Twin.activeEntry {s u : State} (h : Twin s u) (d : Nat) : u.activeEntry d = s.activeEntry d := by
  cases h
  rfl

/-- Settles O41: an interleaving is a twin of MAIN's micro-steps alone, which keep the active buffer up to the last and show the
update at it. -/
theorem updateIsAtomic : Obligations.UpdateIsAtomic := by
  intro s t vals pts ts hinv hlatch hconf hrest hvals hpts hrunning hrun whole
  obtain ⟨v, hmain, htwin, -⟩ := runTurns_twin (.refl s) hinv hinv hrunning hrun
  rw [mainOnly_eq_replicate] at hmain
  obtain ⟨-, hn, -⟩ := hinv.mdInv.count hconf
  have hwf : (Instr.mdUpdate vals pts).wf = true := by
    simp only [Instr.wf, lengthFits, Bool.and_eq_true, decide_eq_true_eq]
    omega
  have hcheck : updateValidate s.md vals pts = .ok () := updateValidate_eq_ok.mpr ⟨hconf, hvals, hpts⟩
  obtain ⟨hphase, hdue⟩ := updateAtRest_iff.mpr hrest
  have hleft := microStepsLeft_of_entry hlatch hwf hcheck hphase hdue
  have hwhole : s.microStepsLeft = whole := by
    rw [hleft]
    cases hscheme : s.params.cdcScheme <;> simp [whole, hscheme]
  have hanswers : responses t.trace = v.answers := htwin.answers
  simp only [htwin.activeEntry, hanswers]
  refine ⟨fun hlt => ?_, fun heq => ?_⟩
  · rw [← hwhole] at hlt
    obtain ⟨-, -, -, hsilent⟩ := run_before_response _ hinv hlatch hlt hmain
    exact ⟨(run_update hinv hlatch hwf hcheck hlt hmain).active, hsilent⟩
  · have hpos : 1 ≤ s.microStepsLeft := by
      rw [hleft]
      split <;> omega
    obtain ⟨j, hj⟩ : ∃ j, s.microStepsLeft = j + 1 := ⟨s.microStepsLeft - 1, by omega⟩
    rw [heq, ← hwhole, hj] at hmain
    exact run_whole_update hinv hlatch hwf hcheck hj hmain

end Sys2Proof.Machine
end
